-- ==== Sys2Proof/Word.lean ====
section
/-! DEFINITION. The word types of the block: spec/00_scope.md rules R10, R11 and R13. -/

namespace Sys2Proof

/-- A 32-bit register or command word; bit 0 is the least significant bit (R10). -/
abbrev Word := BitVec 32

/-- A 64-bit quantity: the target `TARGET_HI:TARGET_LO` or the increment `INC` (R10, R101). -/
abbrev DWord := BitVec 64

/-- One byte of a register on a byte-addressed bus (20_memory.md R67). -/
abbrev Byte := BitVec 8

/-- `A:B` of two 32-bit registers: the 64-bit value `A * 2^32 + B` (R10). -/
abbrev Word.pair (hi lo : Word) : DWord := hi ++ lo

end Sys2Proof
end

