-- ==== Sys2Proof/Config.lean ====
section
/-! DEFINITION. The implementation parameters (spec/00_scope.md R8), the inputs of one cycle (R9,
spec/44_cycle.md R240) and the free values: the platform's placement of the block and the inputs that
no script gives. -/

namespace Sys2Proof

/-- The implementation parameters of 00_scope.md R8 that have a legal range; `BLOCK_BASE`, which R8
leaves OPEN, is `Config.blockBase`. The ranges are checked by `Params.legal` (WellFormed.lean). -/
structure Params where
  /-- `N_INST`, the number of instances, 1..16 -/
  nInst : Nat
  /-- `N_LINES`, the number of platform lines, 4..32 -/
  nLines : Nat
  /-- `FIFO_DEPTH`, the capacity of a channel, 1..255 -/
  fifoDepth : Nat
  /-- `LOOP_CYCLES` (`L`), cycles per count unit, 1..255 -/
  loopCycles : Nat
  /-- `SLACK_CYCLES` (`S`), cycles of the slack phase, 0..253 -/
  slackCycles : Nat
  /-- `MIN_COUNT`, the smallest count, 0..2^32-2 -/
  minCount : Nat
  deriving DecidableEq, Repr, Inhabited

/-- The "default" column of 00_scope.md R8. -/
def Params.default : Params :=
  { nInst := 1, nLines := 32, fifoDepth := 4, loopCycles := 2, slackCycles := 2, minCount := 0 }

/-- `K = S + 2`, the fixed overhead cycles of a half-period (00_scope.md R8, derived parameter). -/
def Params.overhead (p : Params) : Nat := p.slackCycles + 2

/-- Where a host access goes: to byte offset `off` of the window of instance `i`, as R240 of
44_cycle.md has it, or to a byte address of the platform, which 20_memory.md R60 places. -/
inductive HostAddress where
  | window (i off : Nat)
  | platform (addr : Nat)
  deriving DecidableEq, Repr, Inhabited

/-- A read, or a write of a 32-bit value (00_scope.md R13). -/
inductive AccessKind where
  | read
  | write (v : Word)
  deriving DecidableEq, Repr, Inhabited

/-- One host access. `width` is in bytes: only 4 is an access the block acts on (20_memory.md R66;
log entry 17). -/
structure HostAccess where
  address : HostAddress
  width : Nat
  kind : AccessKind
  deriving DecidableEq, Repr, Inhabited

/-- The inputs of one cycle (44_cycle.md R240, 00_scope.md R9). Bit `i` of `schedReady` is the draw
`sched_ready_i`, bit `i` of `linesLost` the draw `lines_lost_i`, bit `j` of `linesAvail` says that
the platform lets the block drive line `j`; bits beyond `N_INST` or `N_LINES` are read by nothing (log
entry 16). `accesses` is a list because the platform could present
more than one access; 70_reset_and_hazards.md R293 has a model refuse that. -/
structure CycleInputs where
  rst : Bool
  accesses : List HostAccess
  linesAvail : BitVec 32
  schedReady : BitVec 16
  linesLost : BitVec 16
  deriving DecidableEq, Repr, Inhabited

/-- Free value: `BLOCK_BASE / 64`. 00_scope.md R8 leaves `BLOCK_BASE` OPEN, a multiple of 64
(log entry 3). -/
opaque Config.blockBaseUnits : Nat

/-- `BLOCK_BASE`, the platform byte address of instance 0's window (20_memory.md R60). -/
def Config.blockBase : Nat := 64 * Config.blockBaseUnits

/-- Free value: the inputs of the cycle with the given number where no script gives them. R9: the
inputs are "free inputs of each step under no law" (log entry 1). -/
opaque Config.environment : Nat → CycleInputs

end Sys2Proof
end

