-- ==== Sys2Proof/Syntax.lean ====
section
/-! DEFINITION. The instruction set: the five command words of spec/30_encoding.md R91, one
constructor per row of spec/opcode_table.json. -/

namespace Sys2Proof

/-- A command the decoder accepts (30_encoding.md R91 to R97). An operand field has the width of its
encoding, so every value of it is an operand the encoding admits. Words that are none of these are
ILLEGAL (R98): the decoder rejects them by name and they are no instruction. -/
inductive Instr where
  /-- `NOP` (R92, 43_controller.md R202) -/
  | nop
  /-- `START pin_base, pat` (R93, R203) -/
  | start (pinBase : BitVec 5) (pat : BitVec 4)
  /-- `SET_FREQ` (`pr = false`) and `SET_FREQ pr` (`pr = true`) (R94, R206) -/
  | setFreq (pr : Bool)
  /-- `STOP` (`force = false`) and `STOP force` (`force = true`) (R95, R208 to R210) -/
  | stop (force : Bool)
  /-- `CLR_UNDERRUN` (R96, R211) -/
  | clrUnderrun
  deriving DecidableEq, Repr

end Sys2Proof
end

