-- ==== Sys2Proof/WellFormed.lean ====
section
/-! DEFINITION. Well-formedness: which parameter sets describe a block (spec/00_scope.md R8), and the
operand ranges of the instructions (spec/30_encoding.md R97, R102). -/

namespace Sys2Proof

/-- The legal ranges of 00_scope.md R8. A parameter set outside them "is not a block"
(93_implementation_defined.md I23): `Machine.step` refuses it by name. -/
def Params.legal (p : Params) : Bool :=
  (1 ≤ p.nInst && p.nInst ≤ 16) &&
  (4 ≤ p.nLines && p.nLines ≤ 32) &&
  (1 ≤ p.fifoDepth && p.fifoDepth ≤ 255) &&
  (1 ≤ p.loopCycles && p.loopCycles ≤ 255) &&
  p.slackCycles ≤ 253 &&
  p.minCount ≤ 4294967294

/-- The operand ranges of R102: `pin_base` 0..31 and `pat` 0..15. -/
def Instr.operandsInRange (pinBase pat : Nat) : Bool := pinBase < 32 && pat < 16

/-- `START` from the numbers of the assembler syntax (R102); rejected where a number is out of range. -/
def Instr.startOfNumbers (pinBase pat : Nat) : Option Instr :=
  if Instr.operandsInRange pinBase pat then
    some (.start (BitVec.ofNat 5 pinBase) (BitVec.ofNat 4 pat))
  else none

/-- An instruction is well formed when its operands, read as the numbers of R102, are in range. The
types of the operand fields already say so: `Laws/Encoding.lean` proves it of every instruction. -/
def Instr.wellFormed : Instr → Bool
  | .nop => true
  | .start pinBase pat => Instr.operandsInRange pinBase.toNat pat.toNat
  | .setFreq pr => pr.toNat < 2
  | .stop force => force.toNat < 2
  | .clrUnderrun => true

end Sys2Proof
end

