-- ==== Sys2Proof/Decode.lean ====
section
/-! DEFINITION. The decoder of command words, total on all 2^32 words, and the encoder:
spec/30_encoding.md R90 to R104. -/

namespace Sys2Proof

/-- Why a word is ILLEGAL (R98). Both have the one effect of 43_controller.md R215. -/
inductive DecodeReject where
  /-- `OPC` is one of 0x5..0xF (R91) -/
  | reservedOpcode
  /-- a known `OPC` with a nonzero bit outside the fields of its format (R92 to R96) -/
  | reservedBits
  /-- not the four bytes of one word (R90: every command word has one length) -/
  | wrongLength
  deriving DecidableEq, Repr

/-- One row of the opcode table: a word matches when its bits under `mask` are `pattern`. -/
structure OpcodeRow where
  mnemonic : String
  pattern : Word
  mask : Word
  deriving DecidableEq, Repr

/-- `match` and `mask` of R92 to R96, as spec/opcode_table.json lists them. -/
def opcodeTable : List OpcodeRow :=
  [ { mnemonic := "NOP", pattern := 0x00000000#32, mask := 0xFFFFFFFF#32 },
    { mnemonic := "START", pattern := 0x00000001#32, mask := 0xFFFF0E0F#32 },
    { mnemonic := "SET_FREQ", pattern := 0x00000002#32, mask := 0xFFFFFFEF#32 },
    { mnemonic := "STOP", pattern := 0x00000003#32, mask := 0xFFFFFFEF#32 },
    { mnemonic := "CLR_UNDERRUN", pattern := 0x00000004#32, mask := 0xFFFFFFFF#32 } ]

/-- Whether a word is one of a row's words. -/
def OpcodeRow.accepts (r : OpcodeRow) (w : Word) : Bool := w &&& r.mask == r.pattern

/-- `OPC`, bits 3:0 (R90). -/
def Word.opcode (w : Word) : BitVec 4 := w.extractLsb' 0 4

/-- `PIN_BASE = w[8:4]` (R93, R97). -/
def Word.pinBaseField (w : Word) : BitVec 5 := w.extractLsb' 4 5

/-- `PAT = w[15:12]` (R93, R97). -/
def Word.patField (w : Word) : BitVec 4 := w.extractLsb' 12 4

/-- `PR = w[4]` and `FORCE = w[4]` (R94, R95, R97). -/
def Word.bit4 (w : Word) : Bool := w.getLsbD 4

/-- The decoder of R98. A rejected word is the spec's ILLEGAL. -/
def decode (w : Word) : Except DecodeReject Instr :=
  if w = 0x00000000#32 then .ok .nop
  else if w.opcode = 0x1#4 ∧ w &&& 0xFFFF0E00#32 = 0#32 then .ok (.start w.pinBaseField w.patField)
  else if w.opcode = 0x2#4 ∧ w &&& 0xFFFFFFE0#32 = 0#32 then .ok (.setFreq w.bit4)
  else if w.opcode = 0x3#4 ∧ w &&& 0xFFFFFFE0#32 = 0#32 then .ok (.stop w.bit4)
  else if w = 0x00000004#32 then .ok .clrUnderrun
  else if 5 ≤ w.opcode.toNat then .error .reservedOpcode
  else .error .reservedBits

/-- The word of an instruction, from the formats of R92 to R96 (the table of R102). -/
def encode : Instr → Word
  | .nop => 0x00000000#32
  | .start pinBase pat => 0#16 ++ pat ++ 0#3 ++ pinBase ++ 0x1#4
  | .setFreq pr => 0#27 ++ BitVec.ofBool pr ++ 0x2#4
  | .stop force => 0#27 ++ BitVec.ofBool force ++ 0x3#4
  | .clrUnderrun => 0x00000004#32

/-- The row of the opcode table that an instruction's words belong to. -/
def Instr.row : Instr → OpcodeRow
  | .nop => { mnemonic := "NOP", pattern := 0x00000000#32, mask := 0xFFFFFFFF#32 }
  | .start _ _ => { mnemonic := "START", pattern := 0x00000001#32, mask := 0xFFFF0E0F#32 }
  | .setFreq _ => { mnemonic := "SET_FREQ", pattern := 0x00000002#32, mask := 0xFFFFFFEF#32 }
  | .stop _ => { mnemonic := "STOP", pattern := 0x00000003#32, mask := 0xFFFFFFEF#32 }
  | .clrUnderrun => { mnemonic := "CLR_UNDERRUN", pattern := 0x00000004#32, mask := 0xFFFFFFFF#32 }

/-- Byte `k` of a register: bits `[8k+7:8k]` (20_memory.md R67). -/
def Word.byteAt (k : Nat) (w : Word) : Byte := w.extractLsb' (8 * k) 8

/-- The four bytes of a word, the lowest address first (20_memory.md R67). -/
def Word.toBytes (w : Word) : List Byte := [w.byteAt 0, w.byteAt 1, w.byteAt 2, w.byteAt 3]

/-- The decoder on the bytes of one command word, the lowest address first. -/
def decodeBytes : List Byte → Except DecodeReject Instr
  | [b0, b1, b2, b3] => decode (b3 ++ b2 ++ b1 ++ b0)
  | _ => .error .wrongLength

/-- The instruction the decoder reads from an instruction whose bits are `w`; bits at `nbits` and
above are 0. -/
def decodeTableWord (nbits w : Nat) : Option Instr :=
  match decodeBytes (Word.toBytes (BitVec.ofNat 32 (w % 2 ^ nbits))) with
  | .ok i => some i
  | .error _ => none

end Sys2Proof
end

