-- ==== Sys2Proof/Machine/State.lean ====
section
/-! DEFINITION. The architectural state of the block, as plain data: spec/10_state.md R20 to R40, with
the model's own fields (INVENTORY.md, "State"); the reset state (R40, 70_reset_and_hazards.md R290);
the reasons a step can stop. -/

namespace Sys2Proof.Machine

/-- `STATE` (10_state.md R24). -/
inductive RunState where
  | stopped
  | initializing
  | running
  | fatal
  deriving DecidableEq, Repr

/-- `RESULT` (10_state.md R25, 60_exceptions.md R261). The values 4..7 are never written (R25), so they
have no constructor (log entry 13). -/
inductive Result where
  | ok
  | configError
  | resourceConflict
  | illegalCommand
  deriving DecidableEq, Repr

/-- `E_PHASE`, the phase of the engine's micro-program (10_state.md R21, R22). The values 5..7 are never
reached (R22), so they have no constructor (log entry 13). -/
inductive EPhase where
  | idle
  | load
  | drive
  | delay
  | slack
  deriving DecidableEq, Repr

/-- One instance: "one complete DDFS (engine, scheduler, channel, controller, window)" (00_scope.md
R17), with every item of the state table 10_state.md R40. -/
structure Ddfs where
  /-- `CLK_HZ` (R27) -/
  clkHz : Word
  /-- `TARGET_LO` (R28) -/
  targetLo : Word
  /-- `TARGET_HI` (R28) -/
  targetHi : Word
  /-- `UNDERRUN_CNT` (R36) -/
  underrunCnt : Word
  /-- `INC`, UQ32.32 count units (R31) -/
  inc : DWord
  /-- `ACC`, UQ0.32 count units (R32) -/
  acc : Word
  /-- `CLK_ACT` (R29) -/
  clkAct : Word
  /-- `X`, read as `CUR_COUNT` (R21) -/
  x : Word
  /-- `STATE` (R24) -/
  state : RunState
  /-- `STOP_PENDING` (R26) -/
  stopPending : Bool
  /-- `STALLED` (R23) -/
  stalled : Bool
  /-- `RESULT` (R25) -/
  result : Result
  /-- the channel `Q`, oldest entry first (R34, 42_channel.md R180) -/
  q : List Word
  /-- `PH`: whether the next `DRIVE` drives pattern B (R21) -/
  ph : Bool
  /-- `OWN` (R35) -/
  own : Bool
  /-- `OUT` (R35) -/
  out : BitVec 4
  /-- `E_PHASE` (R21) -/
  ePhase : EPhase
  /-- `PIN_BASE` (R30) -/
  pinBase : BitVec 5
  /-- `PAT_A` (R30) -/
  patA : BitVec 4
  /-- `DCNT` (R21) -/
  dcnt : BitVec 40
  /-- `SCNT` (R21) -/
  scnt : BitVec 8
  deriving DecidableEq, Repr

/-- The reset column of 10_state.md R40. -/
def Ddfs.reset : Ddfs :=
  { clkHz := 0#32, targetLo := 0#32, targetHi := 0#32, underrunCnt := 0#32, inc := 0#64, acc := 0#32,
    clkAct := 0#32, x := 0#32, state := .stopped, stopPending := false, stalled := false,
    result := .ok, q := [], ph := false, own := false, out := 0#4, ePhase := .idle, pinBase := 0#5,
    patA := 0#4, dcnt := 0#40, scnt := 0#8 }

/-- The state of the block (44_cycle.md R240): the instances, with the block's parameters beside them
and the model's own fields. The block has no memory (20_memory.md R60, R70; log entry 12). -/
structure State where
  /-- the parameters of 00_scope.md R8; no step changes them (log entry 2) -/
  params : Params
  /-- the instances, instance 0 first -/
  insts : List Ddfs
  /-- MODEL: the inputs of the cycles to come (log entry 1) -/
  inputs : List CycleInputs
  /-- MODEL: the number of the cycle to come, the argument of the free inputs (log entry 9) -/
  cycle : Nat
  /-- MODEL: `LINES_AVAIL` as sampled in the cycle in progress (log entry 6) -/
  linesAvail : BitVec 32
  /-- MODEL: the instance whose `CMD` received the last command (log entry 6) -/
  cmdWindow : Nat
  /-- MODEL: what the host's read of the last cycle returned, if there was one (log entry 5) -/
  readData : Option Word
  deriving DecidableEq, Repr

/-- The machine stops with a fault: nobody raises one. The block has no traps and no halt
(60_exceptions.md R260, 44_cycle.md R247), so the type has no constructor: safe (log entry 11). -/
inductive Fault where
  deriving DecidableEq, Repr

/-- Why the model refuses to take a step. -/
inductive Refusal where
  /-- Raised by `exec` for an instruction without a meaning yet; no arm raises it. Safe. -/
  | notModelled (mnemonic : String)
  /-- Raised by `step` when the host presents two or more accesses to the block in one cycle:
  70_reset_and_hazards.md R293, "a model refuses such an input". Safe. -/
  | secondAccessInCycle
  /-- Raised by `step` when the parameters are outside the ranges of 00_scope.md R8, or there are not
  `N_INST` instances: 93_implementation_defined.md I23, "the configuration is not a block". Safe. -/
  | notABlock
  deriving DecidableEq, Repr

/-- The reset state of a block with the given parameters: every instance at the reset column of
10_state.md R40; the read data is 0 (44_cycle.md R240). -/
def State.resetWith (p : Params) : State :=
  { params := p, insts := List.replicate p.nInst Ddfs.reset, inputs := [], cycle := 0,
    linesAvail := 0#32, cmdWindow := 0, readData := some 0#32 }

/-- The machine right after reset, with the default parameters of 00_scope.md R8. -/
def State.reset : State := State.resetWith Params.default

end Sys2Proof.Machine
end

