-- ==== Sys2Proof/Machine/Flags.lean ====
section
/-! DEFINITION. The codes of the status fields and the words the host reads them in:
spec/20_memory.md R62 to R64, spec/10_state.md R21, R24, R25. -/

namespace Sys2Proof.Machine

/-- The encoding of `STATE` (20_memory.md R63). -/
def RunState.code : RunState → BitVec 2
  | .stopped => 0#2
  | .initializing => 1#2
  | .running => 2#2
  | .fatal => 3#2

/-- The encoding of `RESULT` (20_memory.md R63). -/
def Result.code : Result → BitVec 3
  | .ok => 0#3
  | .configError => 1#3
  | .resourceConflict => 2#3
  | .illegalCommand => 3#3

/-- The encoding of `E_PHASE` (20_memory.md R63). -/
def EPhase.code : EPhase → BitVec 3
  | .idle => 0#3
  | .load => 1#3
  | .drive => 2#3
  | .delay => 3#3
  | .slack => 4#3

/-- `STATUS` (20_memory.md R63): bits 31:25 and 7 read 0. -/
def Ddfs.statusWord (d : Ddfs) : Word :=
  0#7 ++ d.ePhase.code ++ d.out ++ BitVec.ofBool d.own ++ BitVec.ofBool d.ph ++
    BitVec.ofNat 8 d.q.length ++ 0#1 ++ d.result.code ++ BitVec.ofBool d.stalled ++
    BitVec.ofBool d.stopPending ++ d.state.code

/-- `LINES` (20_memory.md R64): bits 31:21, 15:12 and 7:5 read 0. -/
def Ddfs.linesWord (p : Params) (d : Ddfs) : Word :=
  0#11 ++ BitVec.ofNat 5 (p.nLines - 1) ++ 0#4 ++ d.patA ++ 0#3 ++ d.pinBase

/-- `CONFIG` of instance `i` (20_memory.md R62). -/
def configWord (p : Params) (i : Nat) : Word :=
  BitVec.ofNat 4 i ++ BitVec.ofNat 4 (p.nInst - 1) ++ BitVec.ofNat 8 p.loopCycles ++
    BitVec.ofNat 8 p.slackCycles ++ BitVec.ofNat 8 p.fifoDepth

/-- `sat32(v + 1)` of a 32-bit counter (00_scope.md R11, 40_engine.md R121). -/
def satIncrement (v : Word) : Word := BitVec.ofNat 32 (min (v.toNat + 1) 4294967295)

end Sys2Proof.Machine
end

