-- ==== Sys2Proof/Machine/Ops.lean ====
section
/-! DEFINITION. The named operations the rules share: the error primitive (spec/00_scope.md R14), the
channel primitives (spec/42_channel.md R181 to R184), teardown and its line-loss form
(spec/43_controller.md R214, spec/60_exceptions.md R266), and the update of one instance. The block
takes no exception (60_exceptions.md R260, R269): `Ddfs.fail` stands where a processor's exception
entry would. -/

namespace Sys2Proof.Machine

/-- The write of `RESULT`. -/
def Ddfs.withResult (code : Result) (d : Ddfs) : Ddfs := { d with result := code }

/-- `fail(code)`: "no other state is written by the command" (00_scope.md R14). -/
def Ddfs.fail (code : Result) (d : Ddfs) : Ddfs := d.withResult code

/-- `ok()`, after the writes a rule lists (00_scope.md R14). -/
def Ddfs.succeed (d : Ddfs) : Ddfs := d.withResult .ok

/-- `push(c)` (42_channel.md R181). -/
def Ddfs.push (c : Word) (d : Ddfs) : Ddfs := { d with q := d.q ++ [c] }

/-- `pop()` (42_channel.md R182). -/
def Ddfs.pop (d : Ddfs) : Ddfs := { d with q := d.q.tail }

/-- `flush()` (42_channel.md R184). -/
def Ddfs.flush (d : Ddfs) : Ddfs := { d with q := [] }

/-- What teardown (43_controller.md R214) and the line-loss transition (60_exceptions.md R266) share: the
run ends in state `st`, the engine is `IDLE`, the channel empty, the lines released. -/
def Ddfs.release (st : RunState) (d : Ddfs) : Ddfs :=
  { d.flush with
    state := st, stopPending := false, stalled := false, ePhase := .idle, out := 0#4, own := false,
    ph := false, dcnt := 0#40, scnt := 0#8 }

/-- `teardown()` (43_controller.md R214). -/
def Ddfs.teardown (d : Ddfs) : Ddfs := d.release .stopped

/-- The line-loss transition (60_exceptions.md R266): "the teardown ... with Fatal in place of Stopped". -/
def Ddfs.loseLines (d : Ddfs) : Ddfs := d.release .fatal

/-- Pattern B: `PAT_A ^ 0xF`, the bitwise complement (10_state.md R30). -/
def complement4 (pat : BitVec 4) : BitVec 4 := pat ^^^ 0xF#4

/-- Apply `f` to the instance with number `i`, if there is one. -/
def State.modifyInst (i : Nat) (f : Ddfs → Ddfs) (s : State) : State :=
  { s with insts := s.insts.modify i f }

/-- Apply `f` to the instance whose window received the command (43_controller.md R200, R217). Where no
instance has that number the command has no effect (log entry 4). -/
def State.onTarget (f : Ddfs → Ddfs) (s : State) : State := s.modifyInst s.cmdWindow f

/-- `f` applied to every entry, with its number counted from `i`. -/
def mapFrom (f : Nat → Ddfs → Ddfs) (i : Nat) : List Ddfs → List Ddfs
  | [] => []
  | d :: ds => f i d :: mapFrom f (i + 1) ds

/-- The rest of a cycle after a phase that may refuse the input. -/
def thenNext (o : Host.Outcome State Fault Refusal) (f : State → State) :
    Host.Outcome State Fault Refusal :=
  match o with
  | .next s => .next (f s)
  | .fault r => .fault r
  | .refused r => .refused r

end Sys2Proof.Machine
end

