-- ==== Sys2Proof/Machine/Operands.lean ====
section
/-! DEFINITION. The operands a command reads that are not in its word (spec/30_encoding.md R97): the
staged target, the increment computed from it (spec/41_scheduler.md R150), and the lines `START`
asks for (spec/43_controller.md R203, spec/60_exceptions.md R262). -/

namespace Sys2Proof.Machine

/-- The staged target `T = TARGET_HI:TARGET_LO`, UQ32.32 hertz (10_state.md R28, 30_encoding.md R97). -/
def Ddfs.target (d : Ddfs) : DWord := Word.pair d.targetHi d.targetLo

/-- `calc_inc(clk, T)` on unbounded integers; `none` is INVALID (41_scheduler.md R150). -/
def calcIncNat (p : Params) (clk t : Nat) : Option Nat :=
  if clk = 0 ∨ t = 0 then none
  else if clk * 2 ^ 31 < t * (p.overhead + p.loopCycles * p.minCount) then none
  else if (2 ^ 32 - 1) * 2 ^ 32 ≤
      (clk * 2 ^ 63 - p.overhead * t * 2 ^ 32) / (p.loopCycles * t) then none
  else some ((clk * 2 ^ 63 - p.overhead * t * 2 ^ 32) / (p.loopCycles * t))

/-- `calc_inc(clk, T)` as the 64-bit value stored in `INC` (41_scheduler.md R150, R151). -/
def calcInc (p : Params) (clk : Word) (t : DWord) : Option DWord :=
  (calcIncNat p clk.toNat t.toNat).map (BitVec.ofNat 64)

/-- Whether the lines `pb..pb+3` exist and are all in `LINES_AVAIL` (43_controller.md R203). -/
def pinsAvailable (p : Params) (linesAvail : BitVec 32) (pb : Nat) : Bool :=
  pb ≤ p.nLines - 4 && linesAvail.getLsbD pb && linesAvail.getLsbD (pb + 1) &&
    linesAvail.getLsbD (pb + 2) && linesAvail.getLsbD (pb + 3)

/-- Whether an instance owns one of the lines `pb..pb+3` (43_controller.md R203). -/
def Ddfs.ownsLineIn (pb : Nat) (d : Ddfs) : Bool :=
  d.own && d.pinBase.toNat ≤ pb + 3 && pb ≤ d.pinBase.toNat + 3

/-- Whether an instance other than `i`, counting the list's head as instance `k`, owns one of the lines
`pb..pb+3` (43_controller.md R203). -/
def ownedByOther (i pb k : Nat) : List Ddfs → Bool
  | [] => false
  | d :: ds => (k != i && d.ownsLineIn pb) || ownedByOther i pb (k + 1) ds

/-- Whether the lines `START` asks for on window `cmdWindow` overlap another instance's. -/
def State.linesTaken (pb : Nat) (s : State) : Bool := ownedByOther s.cmdWindow pb 0 s.insts

end Sys2Proof.Machine
end

