-- ==== Sys2Proof/Machine/Scheduler.lean ====
section
/-! DEFINITION. The Cycle Scheduler's step: spec/41_scheduler.md R153 to R156. -/

namespace Sys2Proof.Machine

/-- `s := ACC + INC` (41_scheduler.md R154). -/
def Ddfs.schedSum (d : Ddfs) : Nat := d.acc.toNat + d.inc.toNat

/-- The count a step emits: `max(s div 2^32, MIN_COUNT)` (R154). Under the bound of R151 it is below
2^32; outside it, which no run reaches, the count wraps (log entry 8). -/
def Ddfs.nextCount (p : Params) (d : Ddfs) : Word :=
  BitVec.ofNat 32 (max (d.schedSum / 2 ^ 32) p.minCount)

/-- The remainder a step retains: `s mod 2^32` (R154). -/
def Ddfs.nextAcc (d : Ddfs) : Word := BitVec.ofNat 32 d.schedSum

/-- The scheduler is enabled exactly when `STATE` is Initializing or Running (10_state.md R33). -/
def Ddfs.active (d : Ddfs) : Bool := d.state == .initializing || d.state == .running

/-- Conditions 1 to 3 of R153, on the values at the start of the unit phase. -/
def Ddfs.schedSteps (p : Params) (ready : Bool) (d : Ddfs) : Bool :=
  d.active && ready && decide (d.q.length < p.fifoDepth)

/-- The scheduler step (R154). -/
def Ddfs.schedStep (p : Params) (d : Ddfs) : Ddfs :=
  { d with acc := d.nextAcc, q := d.q ++ [d.nextCount p] }

end Sys2Proof.Machine
end

