-- ==== Sys2Proof/Machine/Controller.lean ====
section
/-! DEFINITION. The Frequency Controller's commands, one meaning each: spec/43_controller.md R200 to
R217. A command acts on the instance of the window it was written to (R200, R217), in the host phase
of its cycle (44_cycle.md R241); the rest of the cycle is `Machine/Cycle.lean`. Every command
completes: its errors are results, not stops (R200, 60_exceptions.md R260). -/

namespace Sys2Proof.Machine

/-- The first failing check of `START` before the increment, in the priority of 60_exceptions.md R262
(items 2 to 5), which is the order of 43_controller.md R203. `pinsOk` says that the lines exist and
are available, `taken` that another instance owns one. -/
def startFailure (st : RunState) (pinsOk taken : Bool) : Option Result :=
  if st = .fatal then some .configError
  else if st ≠ .stopped then some .resourceConflict
  else if !pinsOk then some .configError
  else if taken then some .resourceConflict
  else none

/-- The writes of a successful `START` with increment `inc` (43_controller.md R203). -/
def Ddfs.startRun (pinBase : BitVec 5) (pat : BitVec 4) (inc : DWord) (d : Ddfs) : Ddfs :=
  Ddfs.succeed
    { d.flush with
      state := .initializing, clkAct := d.clkHz, inc := inc, acc := 0#32, pinBase := pinBase,
      patA := pat, out := complement4 pat, own := true, ph := false, underrunCnt := 0#32,
      stalled := false, stopPending := false, ePhase := .idle }

/-- `START` on one instance (43_controller.md R203). -/
def Ddfs.startCommand (p : Params) (pinsOk taken : Bool) (pinBase : BitVec 5) (pat : BitVec 4)
    (d : Ddfs) : Ddfs :=
  match startFailure d.state pinsOk taken with
  | some code => d.fail code
  | none =>
    match calcInc p d.clkHz d.target with
    | none => d.fail .configError
    | some inc => d.startRun pinBase pat inc

/-- `SET_FREQ` on one instance (43_controller.md R206). -/
def Ddfs.setFreqCommand (p : Params) (pr : Bool) (d : Ddfs) : Ddfs :=
  if d.active then
    match calcInc p d.clkAct d.target with
    | none => d.fail .configError
    | some inc => Ddfs.succeed { d with inc := inc, acc := if pr then 0#32 else d.acc }
  else d.fail .configError

/-- `STOP` on one instance: the rows of 43_controller.md R201 for `STOP` and `STOP force` (R208 to R210). -/
def Ddfs.stopCommand (force : Bool) (d : Ddfs) : Ddfs :=
  match d.state with
  | .stopped => d.succeed
  | .fatal => d.succeed
  | .initializing => d.teardown.succeed
  | .running => if force then d.teardown.succeed else Ddfs.succeed { d with stopPending := true }

/-- `CLR_UNDERRUN` on one instance (43_controller.md R211). -/
def Ddfs.clrUnderrunCommand (d : Ddfs) : Ddfs := Ddfs.succeed { d with underrunCnt := 0#32 }

/-- `NOP` (43_controller.md R202). -/
def execNop (s : State) : Host.Outcome State Fault Refusal := .next (s.onTarget Ddfs.succeed)

/-- `START pin_base, pat` (43_controller.md R203, R204). -/
def execStart (pinBase : BitVec 5) (pat : BitVec 4) (s : State) : Host.Outcome State Fault Refusal :=
  .next (s.onTarget (Ddfs.startCommand s.params
    (pinsAvailable s.params s.linesAvail pinBase.toNat) (s.linesTaken pinBase.toNat) pinBase pat))

/-- `SET_FREQ` and `SET_FREQ pr` (43_controller.md R206). -/
def execSetFreq (pr : Bool) (s : State) : Host.Outcome State Fault Refusal :=
  .next (s.onTarget (Ddfs.setFreqCommand s.params pr))

/-- `STOP` and `STOP force` (43_controller.md R208, R209, R210). -/
def execStop (force : Bool) (s : State) : Host.Outcome State Fault Refusal :=
  .next (s.onTarget (Ddfs.stopCommand force))

/-- `CLR_UNDERRUN` (43_controller.md R211). -/
def execClrUnderrun (s : State) : Host.Outcome State Fault Refusal :=
  .next (s.onTarget Ddfs.clrUnderrunCommand)

/-- A word the decoder rejects (43_controller.md R215): `fail(ILLEGAL_COMMAND)` and nothing else. -/
def illegalCommand (s : State) : State := s.onTarget (Ddfs.fail .illegalCommand)

end Sys2Proof.Machine
end

