-- ==== Sys2Proof/Machine/Dispatch.lean ====
section
/-! DEFINITION. The dispatch of a decoded command to its meaning: spec/43_controller.md R200, R201. -/

namespace Sys2Proof.Machine

/-- The command's effect in the host phase, on the instance of window `s.cmdWindow`. -/
def exec (i : Instr) (s : State) : Host.Outcome State Fault Refusal :=
  match i with
  | .nop => Sys2Proof.Machine.execNop s
  | .start pinBase pat => Sys2Proof.Machine.execStart pinBase pat s
  | .setFreq pr => Sys2Proof.Machine.execSetFreq pr s
  | .stop force => Sys2Proof.Machine.execStop force s
  | .clrUnderrun => Sys2Proof.Machine.execClrUnderrun s

end Sys2Proof.Machine
end

