-- ==== Sys2Proof/Machine/Engine.lean ====
section
/-! DEFINITION. The Waveform Engine's fixed micro-program, one definition per phase:
spec/40_engine.md R120 to R125. Each gives the instance after the engine's rule, with the channel
popped where the rule pops. -/

namespace Sys2Proof.Machine

/-- Phase `IDLE`: no engine register is written (40_engine.md R120). -/
def Ddfs.idlePhase (d : Ddfs) : Ddfs := d

/-- The underrun branch of `LOAD`: stall, hold the outputs, count the episode once (R121;
60_exceptions.md R264). -/
def Ddfs.stall (d : Ddfs) : Ddfs :=
  if d.stalled then d else { d with underrunCnt := satIncrement d.underrunCnt, stalled := true }

/-- Phase `LOAD` (R121). -/
def Ddfs.loadPhase (d : Ddfs) : Ddfs :=
  if d.stopPending then { d with stalled := false, ePhase := .drive }
  else
    match d.q with
    | c :: rest => { d with x := c, q := rest, stalled := false, ePhase := .drive }
    | [] => d.stall

/-- The phase after a delay of no cycles: `SLACK` with its counter loaded, or `LOAD` when `S = 0`
(R122, R123). -/
def Ddfs.enterSlack (p : Params) (d : Ddfs) : Ddfs :=
  if 0 < p.slackCycles then { d with scnt := BitVec.ofNat 8 p.slackCycles, ePhase := .slack }
  else { d with ePhase := .load }

/-- The pattern `PH` selects (R122). -/
def Ddfs.pattern (d : Ddfs) : BitVec 4 := if d.ph then complement4 d.patA else d.patA

/-- `L * X`, the cycles of the `DELAY` phase (R122). -/
def Ddfs.delayCycles (p : Params) (d : Ddfs) : Nat := p.loopCycles * d.x.toNat

/-- The driving branch of `DRIVE` (R122): the edge, and the start of the delay. -/
def Ddfs.driveEdge (p : Params) (d : Ddfs) : Ddfs :=
  let e := { d with out := d.pattern, ph := !d.ph, dcnt := BitVec.ofNat 40 (d.delayCycles p) }
  if 0 < d.delayCycles p then { e with ePhase := .delay } else e.enterSlack p

/-- Phase `DRIVE` (R122): with the stop pending the teardown takes the place of the edge. -/
def Ddfs.drivePhase (p : Params) (d : Ddfs) : Ddfs :=
  if d.stopPending then d.teardown else d.driveEdge p

/-- Phase `DELAY` (R123). -/
def Ddfs.delayPhase (p : Params) (d : Ddfs) : Ddfs :=
  let e := if d.dcnt = 1#40 then d.enterSlack p else d
  { e with dcnt := d.dcnt - 1#40 }

/-- Phase `SLACK` (R124). -/
def Ddfs.slackPhase (d : Ddfs) : Ddfs :=
  { d with ePhase := if d.scnt = 1#8 then .load else .slack, scnt := d.scnt - 1#8 }

/-- The engine's rule for the cycle: the one of its phase (R125). -/
def Ddfs.engineRule (p : Params) (d : Ddfs) : Ddfs :=
  match d.ePhase with
  | .idle => d.idlePhase
  | .load => d.loadPhase
  | .drive => d.drivePhase p
  | .delay => d.delayPhase p
  | .slack => d.slackPhase

/-- Whether the engine's rule tears down in this cycle (R122; 41_scheduler.md R153 condition 4). -/
def Ddfs.engineTearsDown (d : Ddfs) : Bool := d.ePhase == .drive && d.stopPending

end Sys2Proof.Machine
end

