-- ==== Sys2Proof/Machine/Window.lean ====
section
/-! DEFINITION. The register window of an instance: spec/20_memory.md R60 to R68. -/

namespace Sys2Proof.Machine

/-- The platform byte address of byte `off` of instance `i`'s window (20_memory.md R60). -/
def windowAddress (i off : Nat) : Nat := Config.blockBase + 0x40 * i + off

/-- The window and byte offset a host access goes to, or `none` where it is at an address outside every
window, which is "not the block's: the platform decodes it" (R60, 93 I24; log entry 4). -/
def selectWindow (p : Params) : HostAddress → Option (Nat × Nat)
  | .window i off => if i < p.nInst ∧ off < 0x40 then some (i, off) else none
  | .platform a =>
    if Config.blockBase ≤ a ∧ a < Config.blockBase + 0x40 * p.nInst then
      some ((a - Config.blockBase) / 0x40, (a - Config.blockBase) % 0x40)
    else none

/-- Only aligned 32-bit accesses exist (R66). -/
def accessExists (width off : Nat) : Bool := width == 4 && off % 4 == 0

/-- The register map (R61) as instance `i` of the block reads it: `CMD` and the reserved offsets read 0. -/
def Ddfs.readReg (p : Params) (i off : Nat) (d : Ddfs) : Word :=
  match off with
  | 0x04 => d.statusWord
  | 0x08 => d.clkHz
  | 0x0C => d.targetLo
  | 0x10 => d.targetHi
  | 0x14 => d.underrunCnt
  | 0x18 => d.inc.extractLsb' 0 32
  | 0x1C => d.inc.extractLsb' 32 32
  | 0x20 => d.acc
  | 0x24 => configWord p i
  | 0x28 => BitVec.ofNat 32 p.minCount
  | 0x2C => d.linesWord p
  | 0x30 => d.clkAct
  | 0x34 => d.x
  | _ => 0#32

/-- A write of a register other than `CMD`: the RW registers store the value, every other offset ignores
it (R61, R65). -/
def Ddfs.writeReg (off : Nat) (v : Word) (d : Ddfs) : Ddfs :=
  match off with
  | 0x08 => { d with clkHz := v }
  | 0x0C => { d with targetLo := v }
  | 0x10 => { d with targetHi := v }
  | _ => d

/-- What a host read returns (R65, R66). -/
def State.hostRead (i off width : Nat) (s : State) : Word :=
  if accessExists width off then
    match s.insts[i]? with
    | some d => d.readReg s.params i off
    | none => 0#32
  else 0#32

end Sys2Proof.Machine
end

