-- ==== Sys2Proof/Machine/Cycle.lean ====
section
/-! DEFINITION. One clock cycle: spec/44_cycle.md R240 to R246. -/

namespace Sys2Proof.Machine

/-- The inputs of the cycle to come: the next of the script, or free ones where the script has ended
(00_scope.md R9; log entry 1). -/
def State.currentInputs (s : State) : CycleInputs :=
  match s.inputs with
  | c :: _ => c
  | [] => Config.environment s.cycle

/-- The state as the cycle's phases start from it: the inputs `c` taken from the script and
`LINES_AVAIL` sampled. -/
def State.sample (c : CycleInputs) (s : State) : State :=
  { s with inputs := s.inputs.tail, cycle := s.cycle + 1, linesAvail := c.linesAvail, readData := none }

/-- A block has parameters in the ranges of 00_scope.md R8 and `N_INST` instances. -/
def State.isBlock (s : State) : Bool := s.params.legal && s.insts.length == s.params.nInst

/-- A cycle with `rst` = 1 (44_cycle.md R245): every instance at its reset state, read data 0. -/
def State.resetCycle (s : State) : State :=
  { s with insts := List.replicate s.params.nInst Ddfs.reset, readData := some 0#32 }

/-- The accesses of a cycle that go to a window of the block, each with its window and offset: only they
are accesses to the block (log entry 15). -/
def selectedAccesses (p : Params) : List HostAccess → List (Nat × Nat × HostAccess)
  | [] => []
  | a :: rest =>
    match selectWindow p a.address with
    | some (i, off) => (i, off, a) :: selectedAccesses p rest
    | none => selectedAccesses p rest

/-- A write of `CMD` of window `i` executes the command (43_controller.md R200, R215; log
entry 7). -/
def State.runCommand (i : Nat) (w : Word) (s : State) : Host.Outcome State Fault Refusal :=
  match decode w with
  | .ok instr => exec instr { s with cmdWindow := i }
  | .error _ => .next (illegalCommand { s with cmdWindow := i })

/-- A host write (20_memory.md R65, R66; 44_cycle.md R241). -/
def State.hostWrite (i off width : Nat) (v : Word) (s : State) : Host.Outcome State Fault Refusal :=
  if accessExists width off then
    if off = 0x00 then s.runCommand i v else .next (s.modifyInst i (Ddfs.writeReg off v))
  else .next s

/-- One access of the host. -/
def State.hostAccess (i off : Nat) (a : HostAccess) (s : State) : Host.Outcome State Fault Refusal :=
  match a.kind with
  | .read => .next { s with readData := some (s.hostRead i off a.width) }
  | .write v => s.hostWrite i off a.width v

/-- The host phase (44_cycle.md R241): at most one access; a second one is refused
(70_reset_and_hazards.md R293). -/
def State.hostPhase (accesses : List (Nat × Nat × HostAccess)) (s : State) :
    Host.Outcome State Fault Refusal :=
  match accesses with
  | [] => .next s
  | [(i, off, a)] => s.hostAccess i off a
  | _ => .refused .secondAccessInCycle

/-- The line-loss phase of one instance (44_cycle.md R242). -/
def Ddfs.lineLossPhase (lost : Bool) (d : Ddfs) : Ddfs := if lost && d.own then d.loseLines else d

/-- The unit phase of one instance (44_cycle.md R243, 42_channel.md R183): engine and scheduler read the
values at its start; a teardown takes the place of the push; the push goes to the tail of the channel
the engine has popped. -/
def Ddfs.unitPhase (p : Params) (ready : Bool) (d : Ddfs) : Ddfs :=
  let e := d.engineRule p
  if d.engineTearsDown then e
  else if d.schedSteps p ready then { e with acc := d.nextAcc, q := e.q ++ [d.nextCount p] }
  else e

/-- Promotion to Running (44_cycle.md R244). -/
def Ddfs.promote (p : Params) (d : Ddfs) : Ddfs :=
  if d.state = .initializing ∧ d.q.length = p.fifoDepth then
    { d with state := .running, ePhase := .load }
  else d

/-- The phases of a cycle after the host phase, for one instance with its draws (44_cycle.md R240). -/
def Ddfs.afterHost (p : Params) (lost ready : Bool) (d : Ddfs) : Ddfs :=
  ((d.lineLossPhase lost).unitPhase p ready).promote p

/-- The phases of a cycle after the host phase, for every instance. The instances are independent in
them (44_cycle.md R248), so the order of the loops of R240 does not matter. -/
def State.unitsPhase (c : CycleInputs) (s : State) : State :=
  { s with
    insts := mapFrom
      (fun i => Ddfs.afterHost s.params (c.linesLost.getLsbD i) (c.schedReady.getLsbD i)) 0 s.insts }

/-- One cycle with inputs `c` (44_cycle.md R240); `rst` has priority over every other input (R245;
log entry 14). -/
def State.cycleWith (c : CycleInputs) (s : State) : Host.Outcome State Fault Refusal :=
  if c.rst then .next (s.sample c).resetCycle
  else thenNext ((s.sample c).hostPhase (selectedAccesses s.params c.accesses)) (State.unitsPhase c)

/-- One clock cycle; a configuration that is not a block is refused (93_implementation_defined.md I23). -/
def State.clock (s : State) : Host.Outcome State Fault Refusal :=
  if s.isBlock then s.cycleWith s.currentInputs else .refused .notABlock

/-- The drive value of a line (44_cycle.md R246). -/
inductive LineLevel where
  | low
  | high
  /-- no instance drives the line: "written Z in vectors" (10_state.md R35) -/
  | notDriven
  deriving DecidableEq, Repr

/-- Whether an instance owns line `j` (10_state.md R37). -/
def Ddfs.ownsLine (j : Nat) (d : Ddfs) : Bool :=
  d.own && d.pinBase.toNat ≤ j && j ≤ d.pinBase.toNat + 3

/-- The level of line `j` as the instances drive it (44_cycle.md R246). There is at most one owner
(10_state.md R37); were there two, the lower-numbered one is shown (log entry 8). -/
def lineLevel (j : Nat) : List Ddfs → LineLevel
  | [] => .notDriven
  | d :: ds =>
    if d.ownsLine j then (if d.out.getLsbD (j - d.pinBase.toNat) then .high else .low)
    else lineLevel j ds

/-- The block's outputs: the level of each line `0..N_LINES-1` (44_cycle.md R246). -/
def State.observe (s : State) : List LineLevel :=
  (List.range s.params.nLines).map fun j => lineLevel j s.insts

end Sys2Proof.Machine
end

