-- ==== Sys2Proof/Machine/Step.lean ====
section
/-! DEFINITION. The step of the machine, one cycle of `clk` (spec/00_scope.md R4, spec/44_cycle.md R240),
and the placing of a command word where the next step takes it. -/

namespace Sys2Proof.Machine

/-- One step is one clock cycle (00_scope.md R4). -/
def step (s : State) : Host.Outcome State Fault Refusal := s.clock

/-- `s` with the command word `w` written to `CMD` of window 0 in the cycle to come: the block fetches
nothing (20_memory.md R70), the host writes its commands. A scripted cycle keeps its draws; where the
script is empty the draws are those of 95_test_vectors.md (all lines available, every scheduler ready,
no line lost) (log entry 10). -/
def State.withFetchWord (s : State) (nbits w : Nat) : State :=
  let access : HostAccess :=
    { address := .window 0 0x00, width := 4, kind := .write (BitVec.ofNat 32 (w % 2 ^ nbits)) }
  match s.inputs with
  | c :: rest => { s with inputs := { c with rst := false, accesses := [access] } :: rest }
  | [] =>
    { s with
      inputs := [{ rst := false, accesses := [access], linesAvail := 0xFFFFFFFF#32,
                   schedReady := 0xFFFF#16, linesLost := 0#16 }] }

end Sys2Proof.Machine
end

