-- ==== Sys2Proof/Safety.lean ====
section
/-! DEFINITION. What counts as a safe run of the block, in the terms the statements use: the inputs the
block accepts (spec/70_reset_and_hazards.md R293), the invariants of spec/10_state.md R39, runs without
host accesses, and the counts the scheduler and the engine exchange. -/

namespace Sys2Proof.Machine

/-- The instances `d` and `e` share no line (10_state.md R37). -/
def Ddfs.disjointFrom (d e : Ddfs) : Prop :=
  d.pinBase.toNat + 3 < e.pinBase.toNat ∨ e.pinBase.toNat + 3 < d.pinBase.toNat

/-- The bounds of `INC` after a successful `START` or `SET_FREQ` (10_state.md R31, 41_scheduler.md R151). -/
def incInBounds (p : Params) (inc : DWord) : Prop :=
  p.minCount * 2 ^ 32 ≤ inc.toNat ∧ inc.toNat < (2 ^ 32 - 1) * 2 ^ 32

/-- The per-instance items of 10_state.md R39, with the entry conditions of the engine's counters
(40_engine.md R123, R124) and the line range of 43_controller.md R203. -/
structure Ddfs.Inv (p : Params) (d : Ddfs) : Prop where
  /-- R39 item 1 -/
  own_iff_active : d.own = true ↔ d.state = .initializing ∨ d.state = .running
  /-- R39 item 2 -/
  idle_iff_not_running : d.ePhase = .idle ↔ d.state ≠ .running
  /-- R39 item 3 -/
  stop_pending_running : d.stopPending = true → d.state = .running
  /-- R39 item 4 -/
  stalled_in_load : d.stalled = true →
    d.state = .running ∧ d.ePhase = .load ∧ d.stopPending = false
  /-- R39 item 5 -/
  level_bounded : d.q.length ≤ p.fifoDepth
  /-- R39 items 5 and 6 -/
  inactive_released : d.state = .stopped ∨ d.state = .fatal →
    d.q = [] ∧ d.out = 0#4 ∧ d.ph = false ∧ d.dcnt = 0#40 ∧ d.scnt = 0#8
  /-- R39 item 7 -/
  initializing_not_full : d.state = .initializing → d.q.length < p.fifoDepth
  /-- R39 item 9 -/
  active_inc : d.state = .initializing ∨ d.state = .running → incInBounds p d.inc
  /-- 40_engine.md R122, R123: a `DELAY` cycle begins with `1 <= DCNT <= L * X` -/
  delay_counts : d.ePhase = .delay → 0 < d.dcnt.toNat ∧ d.dcnt.toNat ≤ d.delayCycles p
  /-- 40_engine.md R122 to R124: a `SLACK` cycle begins with `1 <= SCNT <= S` -/
  slack_counts : d.ePhase = .slack → 0 < d.scnt.toNat ∧ d.scnt.toNat ≤ p.slackCycles
  /-- 43_controller.md R203: the four lines exist -/
  lines_exist : d.own = true → d.pinBase.toNat + 3 < p.nLines

/-- The invariant of the block: 10_state.md R39, item 8 (no line has two owners) among it. -/
structure State.Inv (s : State) : Prop where
  is_block : s.isBlock = true
  each : ∀ d ∈ s.insts, d.Inv s.params
  /-- R39 item 8 -/
  one_owner : ∀ (i j : Nat) (d e : Ddfs), i ≠ j → s.insts[i]? = some d → s.insts[j]? = some e →
    d.own = true → e.own = true → d.disjointFrom e

/-- The inputs of the cycle to come that the block accepts: at most one access selects a window
(70_reset_and_hazards.md R293; log entry 15), or the cycle is a reset cycle (44_cycle.md R245; log
entry 14). -/
def State.inputsAccepted (s : State) : Prop :=
  s.currentInputs.rst = true ∨ (selectedAccesses s.params s.currentInputs.accesses).length ≤ 1

/-- The state with the target instance of a command replaced. -/
def State.setTarget (s : State) (d : Ddfs) : State := { s with insts := s.insts.set s.cmdWindow d }

/-- `d` is the instance the command acts on (43_controller.md R200). -/
def State.targets (s : State) (d : Ddfs) : Prop := s.insts[s.cmdWindow]? = some d

/-- Another instance owns one of the lines `pb..pb+3` (43_controller.md R203, the check of `START`). -/
def State.otherOwns (s : State) (pb : Nat) : Prop :=
  ∃ (j : Nat) (e : Ddfs), j ≠ s.cmdWindow ∧ s.insts[j]? = some e ∧ e.own = true ∧
    e.pinBase.toNat ≤ pb + 3 ∧ pb ≤ e.pinBase.toNat + 3

/-- The lines `pb..pb+3` exist and the platform lets the block drive them (43_controller.md R203). -/
def State.linesUsable (s : State) (pb : Nat) : Prop :=
  pb ≤ s.params.nLines - 4 ∧ ∀ k, k < 4 → s.linesAvail.getLsbD (pb + k) = true

/-- Cycles of one instance without a host access to it and without line loss, one scheduler draw a
cycle (44_cycle.md R243, R244). -/
def Ddfs.quietRun (p : Params) : List Bool → Ddfs → Ddfs
  | [], d => d
  | ready :: rest, d => Ddfs.quietRun p rest (d.afterHost p false ready)

/-- The counts the engine pops in a quiet run, in order (42_channel.md R182, R183). -/
def Ddfs.popped (p : Params) : List Bool → Ddfs → List Word
  | [], _ => []
  | ready :: rest, d =>
    (if d.ePhase = .load ∧ d.stopPending = false then d.q.take 1 else []) ++
      Ddfs.popped p rest (d.afterHost p false ready)

/-- The counts the scheduler pushes in a quiet run, in order (42_channel.md R181, R183). -/
def Ddfs.pushed (p : Params) : List Bool → Ddfs → List Word
  | [], _ => []
  | ready :: rest, d =>
    (if d.engineTearsDown = false ∧ d.schedSteps p ready = true then [d.nextCount p] else []) ++
      Ddfs.pushed p rest (d.afterHost p false ready)

/-- `N` scheduler steps (41_scheduler.md R157). -/
def Ddfs.schedIterate (p : Params) : Nat → Ddfs → Ddfs
  | 0, d => d
  | n + 1, d => Ddfs.schedIterate p n (d.schedStep p)

/-- The sum of the counts that `N` scheduler steps emit (41_scheduler.md R157). -/
def Ddfs.emittedTotal (p : Params) : Nat → Ddfs → Nat
  | 0, _ => 0
  | n + 1, d => (d.nextCount p).toNat + Ddfs.emittedTotal p n (d.schedStep p)

/-- The sum of the counts emitted over consecutive segments, each `N` scheduler steps with one
increment, as `SET_FREQ` without `pr` leaves them (41_scheduler.md R158). -/
def Ddfs.emittedOver (p : Params) : List (DWord × Nat) → Ddfs → Nat
  | [], _ => 0
  | (inc, n) :: rest, d =>
    Ddfs.emittedTotal p n { d with inc := inc } +
      Ddfs.emittedOver p rest (Ddfs.schedIterate p n { d with inc := inc })

/-- The ideal total of such segments in units of `2^-32` counts: the sum of `N * INC` (R158). -/
def idealOver : List (DWord × Nat) → Nat
  | [] => 0
  | (inc, n) :: rest => n * inc.toNat + idealOver rest

/-- What the ready scheduler keeps of an instance (41_scheduler.md R160): no stall, at most one entry
missing while Running, none at a `LOAD`. -/
structure Ddfs.WellFed (p : Params) (d : Ddfs) : Prop where
  not_stalled : d.stalled = false
  nearly_full : d.state = .running → p.fifoDepth ≤ d.q.length + 1
  full_at_load : d.state = .running → d.ePhase = .load → d.q.length = p.fifoDepth
  bounded : d.q.length ≤ p.fifoDepth

/-- The host accesses window `i` in the cycle to come (44_cycle.md R241). -/
def State.accessesWindow (s : State) (i : Nat) : Prop :=
  ∃ (off : Nat) (a : HostAccess),
    (i, off, a) ∈ selectedAccesses s.params s.currentInputs.accesses

end Sys2Proof.Machine
end

