-- ==== Sys2Proof/Certificates/Slice0/Obligations.lean ====
section
/-! DEFINITION. The statements about the block, from the numbered rules of spec/. Each docstring names
the rule; OBLIGATIONS.json lists them. -/

open Sys2Proof Sys2Proof.Machine

-- ---------------------------------------------------------------- encoding (30_encoding.md)

/-- Decode and encode agree in both directions: a word decodes to an instruction exactly when it is that
instruction's word, with every operand at every value (30_encoding.md R98). -/
def Obligations.DecodeAcceptsExactlyTheEncodings : Prop :=
  ∀ (w : Word) (i : Instr), decode w = .ok i ↔ w = encode i

/-- The decoder accepts a word exactly when a row of the opcode table does, the row is the instruction's,
and no word belongs to two rows (30_encoding.md R90 to R98). -/
def Obligations.DecodeAgreesWithOpcodeTable : Prop :=
  (∀ w : Word, (∃ i, decode w = .ok i) ↔ ∃ r ∈ opcodeTable, r.accepts w = true) ∧
  (∀ (w : Word) (i : Instr), decode w = .ok i → i.row.accepts w = true) ∧
  opcodeTable.Pairwise (fun r r' => ∀ w : Word, ¬(r.accepts w = true ∧ r'.accepts w = true))

/-- The two reasons a word is ILLEGAL: a reserved opcode 5..15, or a known opcode with a word no row
accepts (30_encoding.md R91, R98). -/
def Obligations.IllegalWordsAreRejectedByName : Prop :=
  ∀ w : Word,
    (decode w = .error .reservedOpcode ↔ 5 ≤ w.toNat % 16) ∧
    (decode w = .error .reservedBits ↔
      w.toNat % 16 < 5 ∧ ∀ r ∈ opcodeTable, r.accepts w = false)

/-- The twelve example words of 30_encoding.md R104. -/
def Obligations.DecodeOfTheSpecsExampleWords : Prop :=
  decode 0x00000000#32 = .ok .nop ∧
  decode 0x0000F001#32 = .ok (.start 0#5 0xF#4) ∧
  decode 0x0000F061#32 = .ok (.start 6#5 0xF#4) ∧
  decode 0x000051C1#32 = .ok (.start 28#5 0x5#4) ∧
  decode 0x0000F1D1#32 = .ok (.start 29#5 0xF#4) ∧
  decode 0x0000F201#32 = .error .reservedBits ∧
  decode 0x00000012#32 = .ok (.setFreq true) ∧
  decode 0x00000013#32 = .ok (.stop true) ∧
  decode 0x00000010#32 = .error .reservedBits ∧
  decode 0x00000014#32 = .error .reservedBits ∧
  decode 0x00000005#32 = .error .reservedOpcode ∧
  decode 0xFFFFFFFF#32 = .error .reservedOpcode

-- ---------------------------------------------------------------- commands (43_controller.md)

/-- `NOP` is the word 0, completes on every instance in every state and writes `RESULT` alone (43_controller.md
R202). -/
def Obligations.NopWritesOnlyResult : Prop :=
  encode .nop = 0x00000000#32 ∧
  ∀ (s : State) (d : Ddfs), s.targets d →
    exec .nop s = .next (s.setTarget { d with result := .ok })

/-- A `START` whose checks all pass begins a run (43_controller.md R203). -/
def Obligations.StartBeginsARun : Prop :=
  ∀ (s : State) (d : Ddfs) (pinBase : BitVec 5) (pat : BitVec 4) (inc : DWord),
    s.targets d → d.state = .stopped → s.linesUsable pinBase.toNat → ¬ s.otherOwns pinBase.toNat →
    calcInc s.params d.clkHz (d.targetHi ++ d.targetLo) = some inc →
    exec (.start pinBase pat) s = .next (s.setTarget
      { d with
        state := .initializing, clkAct := d.clkHz, inc := inc, acc := 0#32, pinBase := pinBase,
        patA := pat, out := pat ^^^ 0xF#4, own := true, ph := false, underrunCnt := 0#32,
        stalled := false, stopPending := false, q := [], ePhase := .idle, result := .ok })

/-- A failed `START` writes `RESULT` alone, with the code of the first failing check in the priority of
60_exceptions.md R262 (43_controller.md R203, R204). -/
def Obligations.FailedStartReportsTheFirstCause : Prop :=
  ∀ (s : State) (d : Ddfs) (pinBase : BitVec 5) (pat : BitVec 4), s.targets d →
    (d.state = .fatal →
      exec (.start pinBase pat) s = .next (s.setTarget { d with result := .configError })) ∧
    (d.state = .initializing ∨ d.state = .running →
      exec (.start pinBase pat) s = .next (s.setTarget { d with result := .resourceConflict })) ∧
    (d.state = .stopped → ¬ s.linesUsable pinBase.toNat →
      exec (.start pinBase pat) s = .next (s.setTarget { d with result := .configError })) ∧
    (d.state = .stopped → s.linesUsable pinBase.toNat → s.otherOwns pinBase.toNat →
      exec (.start pinBase pat) s = .next (s.setTarget { d with result := .resourceConflict })) ∧
    (d.state = .stopped → s.linesUsable pinBase.toNat → ¬ s.otherOwns pinBase.toNat →
      calcInc s.params d.clkHz (d.targetHi ++ d.targetLo) = none →
      exec (.start pinBase pat) s = .next (s.setTarget { d with result := .configError }))

/-- `SET_FREQ` on an active instance with a valid target writes `INC`, with `pr` clears `ACC`, and sets
`RESULT` to OK; nothing else changes (43_controller.md R206). -/
def Obligations.SetFreqWritesTheIncrement : Prop :=
  ∀ (s : State) (d : Ddfs) (pr : Bool) (inc : DWord),
    s.targets d → d.state = .initializing ∨ d.state = .running →
    calcInc s.params d.clkAct (d.targetHi ++ d.targetLo) = some inc →
    exec (.setFreq pr) s = .next (s.setTarget
      { d with inc := inc, acc := if pr then 0#32 else d.acc, result := .ok })

/-- `SET_FREQ` on an inactive instance, or with an invalid target, writes CONFIG_ERROR to `RESULT` alone
(43_controller.md R206). -/
def Obligations.FailedSetFreqWritesOnlyResult : Prop :=
  ∀ (s : State) (d : Ddfs) (pr : Bool), s.targets d →
    (d.state = .stopped ∨ d.state = .fatal ∨
      calcInc s.params d.clkAct (d.targetHi ++ d.targetLo) = none) →
    exec (.setFreq pr) s = .next (s.setTarget { d with result := .configError })

/-- A `SET_FREQ` without `pr` whose target gives the increment in force changes `RESULT` alone
(43_controller.md R213). -/
def Obligations.RepeatedSetFreqIsIdempotent : Prop :=
  ∀ (s : State) (d : Ddfs),
    s.targets d → d.state = .initializing ∨ d.state = .running →
    calcInc s.params d.clkAct (d.targetHi ++ d.targetLo) = some d.inc →
    exec (.setFreq false) s = .next (s.setTarget { d with result := .ok })

/-- A graceful `STOP` of a Running instance marks the stop pending and does nothing else in the host
phase (43_controller.md R208). -/
def Obligations.GracefulStopMarksTheStopPending : Prop :=
  ∀ (s : State) (d : Ddfs), s.targets d → d.state = .running →
    exec (.stop false) s = .next (s.setTarget { d with stopPending := true, result := .ok })

/-- `STOP force` of a Running instance, and `STOP` of an Initializing one, tear down at once
(43_controller.md R209, R214). -/
def Obligations.ForcedStopTearsDown : Prop :=
  ∀ (s : State) (d : Ddfs) (force : Bool), s.targets d →
    d.state = .initializing ∨ d.state = .running ∧ force = true →
    exec (.stop force) s = .next (s.setTarget
      { d with
        state := .stopped, stopPending := false, stalled := false, q := [], ePhase := .idle,
        out := 0#4, own := false, ph := false, dcnt := 0#40, scnt := 0#8, result := .ok })

/-- `STOP`, in either form, of a Stopped or Fatal instance is OK and has no other effect
(43_controller.md R210). -/
def Obligations.StopOfAnInactiveInstanceIsOk : Prop :=
  ∀ (s : State) (d : Ddfs) (force : Bool), s.targets d → d.state = .stopped ∨ d.state = .fatal →
    exec (.stop force) s = .next (s.setTarget { d with result := .ok })

/-- `CLR_UNDERRUN` completes in every state, zeroes the counter and leaves all else, `STALLED` too
(43_controller.md R211). -/
def Obligations.ClrUnderrunZeroesTheCounter : Prop :=
  ∀ (s : State) (d : Ddfs), s.targets d →
    exec .clrUnderrun s = .next (s.setTarget { d with underrunCnt := 0#32, result := .ok })

/-- Every command answers a next state in which every other instance and everything of the block beside
the instances is unchanged (43_controller.md R200, 44_cycle.md R248). -/
def Obligations.CommandsCompleteAndTouchOneInstance : Prop :=
  ∀ (i : Instr) (s : State), ∃ t, exec i s = .next t ∧
    t.params = s.params ∧ t.inputs = s.inputs ∧ t.cycle = s.cycle ∧ t.linesAvail = s.linesAvail ∧
    t.cmdWindow = s.cmdWindow ∧ t.readData = s.readData ∧ t.insts.length = s.insts.length ∧
    ∀ j, j ≠ s.cmdWindow → t.insts[j]? = s.insts[j]?

/-- What commands leave unchanged in their instance: no command writes `CLK_HZ`, the target, `X`;
only `START` writes `CLK_ACT`, `PIN_BASE`, `PAT_A`; only `START` and `SET_FREQ` write `INC` and `ACC`;
only `START` and `CLR_UNDERRUN` write `UNDERRUN_CNT`; only `START` and `STOP` write the channel, the
output state, the flags and the engine's registers (43_controller.md R202 to R214). -/
def Obligations.CommandFrames : Prop :=
  ∀ (i : Instr) (s t : State) (d e : Ddfs), s.targets d → exec i s = .next t → t.targets e →
    (e.clkHz = d.clkHz ∧ e.targetLo = d.targetLo ∧ e.targetHi = d.targetHi ∧ e.x = d.x) ∧
    ((∀ pinBase pat, i ≠ .start pinBase pat) →
      e.clkAct = d.clkAct ∧ e.pinBase = d.pinBase ∧ e.patA = d.patA) ∧
    ((∀ pinBase pat, i ≠ .start pinBase pat) → (∀ pr, i ≠ .setFreq pr) →
      e.inc = d.inc ∧ e.acc = d.acc) ∧
    ((∀ pinBase pat, i ≠ .start pinBase pat) → i ≠ .clrUnderrun → e.underrunCnt = d.underrunCnt) ∧
    ((∀ pinBase pat, i ≠ .start pinBase pat) → (∀ force, i ≠ .stop force) →
      e.state = d.state ∧ e.stopPending = d.stopPending ∧ e.stalled = d.stalled ∧ e.q = d.q ∧
      e.ph = d.ph ∧ e.own = d.own ∧ e.out = d.out ∧ e.ePhase = d.ePhase ∧ e.dcnt = d.dcnt ∧
      e.scnt = d.scnt)

/-- No command changes `STATE` except a `START` from Stopped to Initializing, a `STOP` in either form
from Initializing to Stopped and a `STOP force` from Running to Stopped (43_controller.md R201,
10_state.md R24). -/
def Obligations.CommandsChangeStateOnlyAsTheTableSays : Prop :=
  ∀ (i : Instr) (s t : State) (d e : Ddfs), s.targets d → exec i s = .next t → t.targets e →
    e.state = d.state ∨
    ((∃ pinBase pat, i = .start pinBase pat) ∧ d.state = .stopped ∧ e.state = .initializing ∧
      e.result = .ok) ∨
    (∃ force, i = .stop force ∧
      (d.state = .initializing ∨ d.state = .running ∧ force = true) ∧
      e.state = .stopped ∧ e.result = .ok)

/-- A word the decoder rejects, written to `CMD`, writes ILLEGAL_COMMAND to the `RESULT` of its window's
instance and nothing else of any instance (43_controller.md R215). -/
def Obligations.IllegalWordWritesOnlyResult : Prop :=
  ∀ (s : State) (i : Nat) (d : Ddfs) (w : Word), s.insts[i]? = some d →
    (∀ instr, decode w ≠ .ok instr) →
    s.hostWrite i 0x00 4 w = .next
      { s with cmdWindow := i, insts := s.insts.set i { d with result := .illegalCommand } }

-- ---------------------------------------------------------------- the window (20_memory.md)

/-- The layout of `STATUS`, with the codes of its fields (20_memory.md R63). -/
def Obligations.StatusWordLayout : Prop :=
  (RunState.code .stopped = 0#2 ∧ RunState.code .initializing = 1#2 ∧ RunState.code .running = 2#2 ∧
    RunState.code .fatal = 3#2) ∧
  (Result.code .ok = 0#3 ∧ Result.code .configError = 1#3 ∧ Result.code .resourceConflict = 2#3 ∧
    Result.code .illegalCommand = 3#3) ∧
  (EPhase.code .idle = 0#3 ∧ EPhase.code .load = 1#3 ∧ EPhase.code .drive = 2#3 ∧
    EPhase.code .delay = 3#3 ∧ EPhase.code .slack = 4#3) ∧
  ∀ (p : Params) (i : Nat) (d : Ddfs), d.q.length ≤ 255 →
    (d.readReg p i 0x04).toNat =
      d.state.code.toNat + d.stopPending.toNat * 2 ^ 2 + d.stalled.toNat * 2 ^ 3 +
      d.result.code.toNat * 2 ^ 4 + d.q.length * 2 ^ 8 + d.ph.toNat * 2 ^ 16 +
      d.own.toNat * 2 ^ 17 + d.out.toNat * 2 ^ 18 + d.ePhase.code.toNat * 2 ^ 22 ∧
    ∀ v, d.writeReg 0x04 v = d

/-- The layout of `LINES` (20_memory.md R64). -/
def Obligations.LinesWordLayout : Prop :=
  ∀ (p : Params) (i : Nat) (d : Ddfs), p.legal = true →
    (d.readReg p i 0x2C).toNat =
      d.pinBase.toNat + d.patA.toNat * 2 ^ 8 + (p.nLines - 1) * 2 ^ 16 ∧
    ∀ v, d.writeReg 0x2C v = d

/-- The constant registers `CONFIG` and `MIN_COUNT`, in every state of the instance and after every
write to them (20_memory.md R62). -/
def Obligations.ConstantRegisters : Prop :=
  ∀ (p : Params) (i : Nat) (d : Ddfs), p.legal = true → i < p.nInst →
    (d.readReg p i 0x24).toNat =
      p.fifoDepth + p.slackCycles * 2 ^ 8 + p.loopCycles * 2 ^ 16 + (p.nInst - 1) * 2 ^ 24 +
      i * 2 ^ 28 ∧
    (d.readReg p i 0x28).toNat = p.minCount ∧
    ∀ v, d.writeReg 0x24 v = d ∧ d.writeReg 0x28 v = d

/-- The register map as a host read sees it: each aligned 32-bit read returns the register of its offset
at the start of the cycle and changes nothing else (20_memory.md R61, R65, R68). `StatusWordLayout`,
`LinesWordLayout` and `ConstantRegisters` say what `readReg` is at `STATUS`, `LINES`, `CONFIG` and
`MIN_COUNT`. -/
def Obligations.ReadsReturnTheirRegister : Prop :=
  ∀ (s : State) (i off : Nat) (d : Ddfs) (address : HostAddress), s.insts[i]? = some d →
    off % 4 = 0 →
    ∃ v, s.hostAccess i off { address := address, width := 4, kind := .read } =
        .next { s with readData := some v } ∧
      v = d.readReg s.params i off ∧
      (off = 0x04 → v = d.statusWord) ∧ (off = 0x24 → v = configWord s.params i) ∧
      (off = 0x28 → v = BitVec.ofNat 32 s.params.minCount) ∧
      (off = 0x2C → v = d.linesWord s.params) ∧
      (off = 0x00 → v = 0#32) ∧ (off = 0x08 → v = d.clkHz) ∧ (off = 0x0C → v = d.targetLo) ∧
      (off = 0x10 → v = d.targetHi) ∧ (off = 0x14 → v = d.underrunCnt) ∧
      (off = 0x18 → v.toNat = d.inc.toNat % 2 ^ 32) ∧
      (off = 0x1C → v.toNat = d.inc.toNat / 2 ^ 32) ∧ (off = 0x20 → v = d.acc) ∧
      (off = 0x30 → v = d.clkAct) ∧ (off = 0x34 → v = d.x) ∧ (off = 0x38 → v = 0#32) ∧
      (off = 0x3C → v = 0#32)

/-- An aligned 32-bit write stores in the three RW registers; at every other offset but `CMD` it has no
effect (20_memory.md R65). -/
def Obligations.WritesStoreOnlyTheRwRegisters : Prop :=
  ∀ (s : State) (i off : Nat) (d : Ddfs) (v : Word), s.insts[i]? = some d → off % 4 = 0 → off ≠ 0 →
    let e :=
      if off = 0x08 then { d with clkHz := v }
      else if off = 0x0C then { d with targetLo := v }
      else if off = 0x10 then { d with targetHi := v }
      else d
    s.hostWrite i off 4 v = .next { s with insts := s.insts.set i e }

/-- A host access whose width is not 4 bytes, or whose offset is not a multiple of 4, has no effect on
any state, and a read of that kind returns 0 (20_memory.md R66). -/
def Obligations.OnlyAlignedWordAccessesExist : Prop :=
  ∀ (s : State) (i off : Nat) (a : HostAccess), a.width ≠ 4 ∨ off % 4 ≠ 0 →
    (∀ v, a.kind = .write v → s.hostAccess i off a = .next s) ∧
    (a.kind = .read → s.hostAccess i off a = .next { s with readData := some 0#32 })

/-- The window of instance `i` stands at `BLOCK_BASE + 0x40 * i`, `BLOCK_BASE` being a multiple of 64,
whatever its value (20_memory.md R60). -/
def Obligations.WindowsStandAtTheirPlatformAddresses : Prop :=
  Config.blockBase % 64 = 0 ∧
  ∀ (p : Params) (i off : Nat), i < p.nInst → off < 0x40 →
    selectWindow p (.platform (Config.blockBase + 0x40 * i + off)) = some (i, off) ∧
    selectWindow p (.window i off) = some (i, off)

/-- THE MODEL'S CHOICE (log entry 4; 93_implementation_defined.md I24 "not the block's: the platform
decodes it"): an access at a platform address outside every window is no access to the block, so the
cycle runs as it does without it. -/
def Obligations.AccessOutsideTheWindowsIsNoAccess : Prop :=
  ∀ (s : State) (c : CycleInputs) (addr width : Nat) (kind : AccessKind),
    addr < Config.blockBase ∨ Config.blockBase + 0x40 * s.params.nInst ≤ addr →
    s.cycleWith { c with accesses := { address := .platform addr, width := width, kind := kind } ::
        c.accesses } =
      s.cycleWith c

/-- Two accesses to the block in one cycle are refused by name (70_reset_and_hazards.md R293), unless
the cycle is a reset cycle (the model's choice, log entry 14). -/
def Obligations.SecondAccessInACycleIsRefused : Prop :=
  ∀ s : State, s.isBlock = true → s.currentInputs.rst = false →
    2 ≤ (selectedAccesses s.params s.currentInputs.accesses).length →
    step s = .refused .secondAccessInCycle

/-- Parameters outside the ranges of 00_scope.md R8 are no block: the step refuses them
(93_implementation_defined.md I23). -/
def Obligations.ParametersOutsideTheirRangesAreRefused : Prop :=
  ∀ s : State,
    (s.params.nInst < 1 ∨ 16 < s.params.nInst ∨ s.params.nLines < 4 ∨ 32 < s.params.nLines ∨
      s.params.fifoDepth < 1 ∨ 255 < s.params.fifoDepth ∨ s.params.loopCycles < 1 ∨
      255 < s.params.loopCycles ∨ 253 < s.params.slackCycles ∨ 2 ^ 32 - 2 < s.params.minCount) →
    step s = .refused .notABlock

-- ---------------------------------------------------------------- the scheduler (41_scheduler.md)

/-- A valid increment is the floor of the ideal count, `inc * L * T <= clk * 2^63 - K * T * 2^32 <
(inc + 1) * L * T` (41_scheduler.md R150). -/
def Obligations.IncrementIsTheFloorOfTheIdealCount : Prop :=
  ∀ (p : Params) (clk : Word) (t inc : DWord), p.legal = true → calcInc p clk t = some inc →
    inc.toNat * (p.loopCycles * t.toNat) + (p.slackCycles + 2) * t.toNat * 2 ^ 32 ≤
      clk.toNat * 2 ^ 63 ∧
    clk.toNat * 2 ^ 63 <
      (inc.toNat + 1) * (p.loopCycles * t.toNat) + (p.slackCycles + 2) * t.toNat * 2 ^ 32

/-- A valid increment lies in `[MIN_COUNT * 2^32, (2^32 - 1) * 2^32)` (41_scheduler.md R151). -/
def Obligations.ValidIncrementsAreInBounds : Prop :=
  ∀ (p : Params) (clk : Word) (t inc : DWord), p.legal = true → calcInc p clk t = some inc →
    incInBounds p inc

/-- Zero clock, zero target and a target above `T_max` are invalid; the valid targets of a clock are an
interval up to `T_max`, on which the increment falls as the target grows (41_scheduler.md R150, R152). -/
def Obligations.ValidTargetsFormAnInterval : Prop :=
  ∀ (p : Params) (clk t : Nat), p.legal = true →
    calcIncNat p 0 t = none ∧ calcIncNat p clk 0 = none ∧
    (clk * 2 ^ 31 / (p.slackCycles + 2 + p.loopCycles * p.minCount) < t → calcIncNat p clk t = none) ∧
    ∀ t' inc', calcIncNat p clk t' = some inc' → t' ≤ t →
      t ≤ clk * 2 ^ 31 / (p.slackCycles + 2 + p.loopCycles * p.minCount) →
      ∃ inc, calcIncNat p clk t = some inc ∧ inc ≤ inc'

/-- The source's round trip: at 135 MHz and 14.097 MHz the increment is 0x64E577E8 with the default
parameters and 0xC9CAEFD1 with `L` = 1 (41_scheduler.md R163, 95_test_vectors.md section 1.1). -/
def Obligations.IncrementOfTheSourcesRoundTrip : Prop :=
  calcInc Params.default 135000000#32 0x00D71A6800000000#64 = some 0x64E577E8#64 ∧
  calcInc { Params.default with loopCycles := 1 } 135000000#32 0x00D71A6800000000#64 =
    some 0xC9CAEFD1#64

/-- With a valid increment the clip never acts: a step emits `s div 2^32`, which lies in
`[MIN_COUNT, 2^32 - 1]`, and retains `s mod 2^32` (41_scheduler.md R154, R155). -/
def Obligations.TheClipNeverActs : Prop :=
  ∀ (p : Params) (d : Ddfs), incInBounds p d.inc →
    ∃ c : Word, (d.schedStep p).q = d.q ++ [c] ∧
      c.toNat = (d.acc.toNat + d.inc.toNat) / 2 ^ 32 ∧
      (d.schedStep p).acc.toNat = (d.acc.toNat + d.inc.toNat) % 2 ^ 32 ∧
      d.inc.toNat / 2 ^ 32 ≤ c.toNat ∧ p.minCount ≤ d.inc.toNat / 2 ^ 32 ∧
      p.minCount ≤ c.toNat ∧ c.toNat ≤ 2 ^ 32 - 1

/-- While `INC` is constant, every emitted count is `q = INC div 2^32` or `q + 1`, the latter exactly
where `ACC + (INC mod 2^32) >= 2^32` (41_scheduler.md R156). -/
def Obligations.EmittedCountsTakeTwoValues : Prop :=
  ∀ (p : Params) (d : Ddfs) (n : Nat), incInBounds p d.inc →
    let e := Ddfs.schedIterate p n d
    e.inc = d.inc ∧
    (e.nextCount p).toNat =
      if 2 ^ 32 ≤ e.acc.toNat + d.inc.toNat % 2 ^ 32 then d.inc.toNat / 2 ^ 32 + 1
      else d.inc.toNat / 2 ^ 32

/-- The cumulative count law: for every run length the emitted total is the ideal total rounded down,
and `ACC` is what is left (41_scheduler.md R157). -/
def Obligations.CumulativeCountLaw : Prop :=
  ∀ (p : Params) (d : Ddfs) (n : Nat), incInBounds p d.inc →
    Ddfs.emittedTotal p n d = (d.acc.toNat + n * d.inc.toNat) / 2 ^ 32 ∧
    (Ddfs.schedIterate p n d).acc.toNat = (d.acc.toNat + n * d.inc.toNat) % 2 ^ 32

/-- Switches compose: over any sequence of increments without a phase reset the emitted total is the
ideal total rounded down, so the phase error stays below one count (41_scheduler.md R158,
43_controller.md R212). -/
def Obligations.FrequencySwitchesKeepThePhase : Prop :=
  ∀ (p : Params) (segments : List (DWord × Nat)) (d : Ddfs),
    (∀ x ∈ segments, incInBounds p x.1) →
    Ddfs.emittedOver p segments d = (d.acc.toNat + idealOver segments) / 2 ^ 32

-- ---------------------------------------------------------------- the channel (42_channel.md)

/-- Push and pop in one unit phase: the engine pops the old head, the scheduler pushes at the tail, both
by the level at the start of the phase; no entry bypasses the channel (42_channel.md R183). `ACC`
becomes `(ACC + INC) mod 2^32` exactly where the scheduler steps, and `INC` is never written
(41_scheduler.md R153, R154, R162); a teardown takes the place of the scheduler's step. -/
def Obligations.UnitPhaseMovesTheChannel : Prop :=
  ∀ (p : Params) (ready : Bool) (d : Ddfs),
    let tearsDown := d.ePhase = .drive ∧ d.stopPending = true
    let steps := (d.state = .initializing ∨ d.state = .running) ∧ ready = true ∧
      d.q.length < p.fifoDepth ∧ ¬ tearsDown
    (¬ tearsDown →
      (d.unitPhase p ready).q =
        (if d.ePhase = .load ∧ d.stopPending = false then d.q.drop 1 else d.q) ++
        (if steps then [d.nextCount p] else [])) ∧
    (tearsDown → (d.unitPhase p ready).q = []) ∧
    (d.unitPhase p ready).acc.toNat =
      (if steps then (d.acc.toNat + d.inc.toNat) % 2 ^ 32 else d.acc.toNat) ∧
    (d.unitPhase p ready).inc = d.inc

/-- First in, first out: in a run without a stop, what was in the channel and what is pushed is what is
popped, in order, and what remains (42_channel.md R186). -/
def Obligations.ChannelIsFirstInFirstOut : Prop :=
  ∀ (p : Params) (draws : List Bool) (d : Ddfs), d.stopPending = false →
    d.q ++ Ddfs.pushed p draws d = Ddfs.popped p draws d ++ (Ddfs.quietRun p draws d).q

-- ---------------------------------------------------------------- the engine (40_engine.md)

/-- The engine's transitions (40_engine.md R125). -/
def Obligations.EngineTransitions : Prop :=
  ∀ (p : Params) (d : Ddfs), p.legal = true →
    let next := (d.engineRule p).ePhase
    (d.ePhase = .idle → next = .idle) ∧
    (d.ePhase = .load → d.stopPending = true → next = .drive) ∧
    (d.ePhase = .load → d.stopPending = false → d.q ≠ [] → next = .drive) ∧
    (d.ePhase = .load → d.stopPending = false → d.q = [] → next = .load) ∧
    (d.ePhase = .drive → d.stopPending = true → next = .idle) ∧
    (d.ePhase = .drive → d.stopPending = false → d.x ≠ 0#32 → next = .delay) ∧
    (d.ePhase = .drive → d.stopPending = false → d.x = 0#32 → 0 < p.slackCycles → next = .slack) ∧
    (d.ePhase = .drive → d.stopPending = false → d.x = 0#32 → p.slackCycles = 0 → next = .load) ∧
    (d.ePhase = .delay → d.dcnt = 1#40 → 0 < p.slackCycles → next = .slack) ∧
    (d.ePhase = .delay → d.dcnt = 1#40 → p.slackCycles = 0 → next = .load) ∧
    (d.ePhase = .delay → 1 < d.dcnt.toNat → next = .delay) ∧
    (d.ePhase = .slack → d.scnt = 1#8 → next = .load) ∧
    (d.ePhase = .slack → 1 < d.scnt.toNat → next = .slack)

/-- A driving `DRIVE` drives the pattern `PH` selects, flips `PH` and loads `DCNT` with `L * X`; with
the stop pending it drives nothing and tears down (40_engine.md R122). -/
def Obligations.DriveDrivesTheSelectedPattern : Prop :=
  ∀ (p : Params) (d : Ddfs), p.legal = true → d.ePhase = .drive →
    (d.stopPending = false →
      (d.engineRule p).out = (if d.ph then d.patA ^^^ 0xF#4 else d.patA) ∧
      (d.engineRule p).ph = !d.ph ∧
      (d.engineRule p).dcnt.toNat = p.loopCycles * d.x.toNat ∧
      (d.engineRule p).x = d.x ∧ (d.engineRule p).q = d.q) ∧
    (d.stopPending = true →
      d.engineRule p =
        { d with
          state := .stopped, stopPending := false, stalled := false, q := [], ePhase := .idle,
          out := 0#4, own := false, ph := false, dcnt := 0#40, scnt := 0#8 })

/-- No owned line changes in a cycle without commands and line loss unless the engine is in `DRIVE`
(40_engine.md R128). -/
def Obligations.EdgesOnlyInDrive : Prop :=
  ∀ (p : Params) (ready : Bool) (d : Ddfs), d.ePhase ≠ .drive →
    (d.afterHost p false ready).out = d.out ∧ (d.afterHost p false ready).own = d.own ∧
    (d.afterHost p false ready).ph = d.ph ∧ (d.afterHost p false ready).pinBase = d.pinBase

/-- An underrun stall holds the outputs, keeps the instance Running, is counted on the first cycle of its
episode with saturation, and ends in the first cycle that finds an entry (40_engine.md R121,
60_exceptions.md R264). -/
def Obligations.UnderrunStallsAndRecovers : Prop :=
  ∀ (p : Params) (ready : Bool) (d : Ddfs),
    d.state = .running → d.ePhase = .load → d.stopPending = false →
    let e := d.afterHost p false ready
    e.state = .running ∧ e.out = d.out ∧ e.ph = d.ph ∧ e.own = d.own ∧ e.result = d.result ∧
    (d.q = [] → e.ePhase = .load ∧ e.x = d.x ∧ e.stalled = true ∧
      e.underrunCnt.toNat =
        if d.stalled then d.underrunCnt.toNat else min (d.underrunCnt.toNat + 1) (2 ^ 32 - 1)) ∧
    (∀ c rest, d.q = c :: rest → e.ePhase = .drive ∧ e.x = c ∧ e.stalled = false ∧
      e.underrunCnt = d.underrunCnt)

/-- Half-period law, in a run without a command and without line loss: from a driving `DRIVE` with count
`c`, if the `LOAD` that follows stalls `s` cycles,
the next `DRIVE` is `L * c + K + s` cycles later, with `OUT` held in between, whatever the scheduler
draws (40_engine.md R126, R127). -/
def Obligations.HalfPeriodLaw : Prop :=
  ∀ (p : Params) (d : Ddfs) (draws : List Bool) (stalls : Nat),
    p.legal = true → d.state = .running → d.ePhase = .drive → d.stopPending = false →
    let c := d.x.toNat
    let run := fun k => Ddfs.quietRun p (draws.take k) d
    let loadAt := p.loopCycles * c + p.slackCycles + 1
    draws.length = p.loopCycles * c + p.overhead + stalls →
    (∀ k, k < stalls → (run (loadAt + k)).q = []) → (run (loadAt + stalls)).q ≠ [] →
    (run (p.loopCycles * c + p.overhead + stalls)).ePhase = .drive ∧
    ∀ k, 0 < k → k < p.loopCycles * c + p.overhead + stalls →
      (run k).ePhase ≠ .drive ∧ (run k).out = d.pattern ∧ (run k).x = d.x

/-- From a successful `START` with a scheduler ready in every cycle the channel is full after
`FIFO_DEPTH` cycles, the instance then Running and at `LOAD`, and the first edge, which drives pattern
A, comes in cycle `FIFO_DEPTH + 1` after the `START`'s (43_controller.md R205, 40_engine.md R130). -/
def Obligations.PrefillAndFirstEdge : Prop :=
  ∀ (p : Params) (d : Ddfs), p.legal = true → d.state = .initializing → d.q = [] → d.ePhase = .idle →
    d.ph = false → d.stopPending = false →
    let run := fun k => Ddfs.quietRun p (List.replicate k true) d
    (∀ k, k < p.fifoDepth →
      (run k).state = .initializing ∧ (run k).q.length = k ∧ (run k).out = d.out) ∧
    (run p.fifoDepth).state = .running ∧ (run p.fifoDepth).ePhase = .load ∧
    (run p.fifoDepth).q.length = p.fifoDepth ∧ (run p.fifoDepth).out = d.out ∧
    (run (p.fifoDepth + 1)).ePhase = .drive ∧ (run (p.fifoDepth + 1)).out = d.out ∧
    (run (p.fifoDepth + 2)).out = d.patA

/-- With no further command and no line loss, a pending stop ends the run within `L * X + K` cycles, the
stop's own cycle among them, whatever the scheduler draws (43_controller.md R208, 70_reset_and_hazards.md R299). -/
def Obligations.PendingStopEndsTheRun : Prop :=
  ∀ (p : Params) (d : Ddfs) (draws : List Bool),
    p.legal = true → d.state = .running → d.ePhase ≠ .idle →
    (d.ePhase = .delay → 0 < d.dcnt.toNat ∧ d.dcnt.toNat ≤ p.loopCycles * d.x.toNat) →
    (d.ePhase = .slack → 0 < d.scnt.toNat ∧ d.scnt.toNat ≤ p.slackCycles) →
    p.loopCycles * d.x.toNat + p.overhead ≤ draws.length →
    (Ddfs.quietRun p draws { d with stopPending := true }).state = .stopped ∧
    (Ddfs.quietRun p draws { d with stopPending := true }).own = false

-- ---------------------------------------------------------------- the cycle (44_cycle.md)

/-- A step runs the decoded command: where the one access of the cycle is a 32-bit write to `CMD` of
window `j` of a word that decodes to `i`, the step is `exec i` on the sampled state with window `j` as
its target, followed by the line-loss, unit and promotion phases of every instance (44_cycle.md R240,
R241, 43_controller.md R200). -/
def Obligations.StepRunsTheDecodedCommand : Prop :=
  ∀ (s : State) (j : Nat) (a : HostAccess) (w : Word) (i : Instr),
    s.isBlock = true → s.currentInputs.rst = false →
    selectedAccesses s.params s.currentInputs.accesses = [(j, 0x00, a)] →
    a.width = 4 → a.kind = .write w → decode w = .ok i → i.wellFormed = true →
    step s = thenNext (exec i { s.sample s.currentInputs with cmdWindow := j })
      (State.unitsPhase s.currentInputs)

/-- A cycle without `rst` is its one access, of any kind, offset and width, on the sampled state, and
then the line-loss, unit and promotion phases of every instance; without an access it is those
phases alone (44_cycle.md R240, R241; 20_memory.md R65, R66). What the access does is stated of
`hostAccess` and `hostWrite`. -/
def Obligations.StepRunsTheSelectedAccess : Prop :=
  ∀ s : State, s.isBlock = true → s.currentInputs.rst = false →
    (∀ (j off : Nat) (a : HostAccess),
      selectedAccesses s.params s.currentInputs.accesses = [(j, off, a)] →
      step s = thenNext ((s.sample s.currentInputs).hostAccess j off a)
        (State.unitsPhase s.currentInputs) ∧
      ∀ v, a.kind = .write v →
        (s.sample s.currentInputs).hostAccess j off a =
          (s.sample s.currentInputs).hostWrite j off a.width v) ∧
    (selectedAccesses s.params s.currentInputs.accesses = [] →
      step s = .next (State.unitsPhase s.currentInputs (s.sample s.currentInputs)))

/-- A block completes every cycle whose inputs it accepts: there is no halt and no trap (44_cycle.md
R247, 60_exceptions.md R260). -/
def Obligations.TheBlockNeverHalts : Prop :=
  ∀ s : State, s.isBlock = true → s.inputsAccepted → ∃ t, step s = .next t

/-- A step keeps the parameters and the number of instances and takes one cycle's inputs. The constants
are those of 20_memory.md R62 and the inputs those of 44_cycle.md R240; that they stand in fields of
the state, and how those move, is the MODEL'S CHOICE: `params` log entry 2, `inputs` log entry 1,
`cycle` log entry 9, `linesAvail` log entry 6. -/
def Obligations.StepKeepsTheConfiguration : Prop :=
  ∀ s t : State, step s = .next t →
    t.params = s.params ∧ t.insts.length = s.insts.length ∧ t.inputs = s.inputs.tail ∧
    t.cycle = s.cycle + 1 ∧ t.linesAvail = s.currentInputs.linesAvail

/-- A reset cycle gives every instance its reset state, whatever the access and the draws of the cycle,
and returns 0 (44_cycle.md R245, 70_reset_and_hazards.md R290). The MODEL'S CHOICE is the rest: that
two accesses in the cycle are not refused (log entry 14), and what becomes of its own fields `inputs`
(log entry 1), `cycle` (log entry 9), `linesAvail` and `cmdWindow` (log entry 6). -/
def Obligations.ResetCycleResetsEveryInstance : Prop :=
  ∀ s : State, s.isBlock = true → s.currentInputs.rst = true →
    step s = .next { s with
      insts := List.replicate s.params.nInst Ddfs.reset, inputs := s.inputs.tail,
      cycle := s.cycle + 1, linesAvail := s.currentInputs.linesAvail, readData := some 0#32 }

/-- The reset state: the default parameters, one instance, every register 0, Stopped, OK, `IDLE`, the
channel empty, no line owned (10_state.md R40, 00_scope.md R8). -/
def Obligations.ResetStateHoldsTheResetColumn : Prop :=
  State.reset.params = { nInst := 1, nLines := 32, fifoDepth := 4, loopCycles := 2, slackCycles := 2,
                         minCount := 0 } ∧
  State.reset.insts =
    [{ clkHz := 0#32, targetLo := 0#32, targetHi := 0#32, underrunCnt := 0#32, inc := 0#64,
       acc := 0#32, clkAct := 0#32, x := 0#32, state := .stopped, stopPending := false,
       stalled := false, result := .ok, q := [], ph := false, own := false, out := 0#4,
       ePhase := .idle, pinBase := 0#5, patA := 0#4, dcnt := 0#40, scnt := 0#8 }]

/-- The invariants of 10_state.md R39 hold of the reset state of every block. -/
def Obligations.ResetSatisfiesTheBlockInvariant : Prop :=
  ∀ p : Params, p.legal = true → (State.resetWith p).Inv

/-- Every step keeps the invariants of 10_state.md R39, whatever the inputs of its cycle. -/
def Obligations.EveryStepKeepsTheBlockInvariant : Prop :=
  ∀ s t : State, s.Inv → step s = .next t → t.Inv

/-- Where the scheduler of an instance is ready, the engine does not stall and nothing is counted: the
channel stays full up to the entry a `LOAD` has just taken, and is full at every `LOAD`
(41_scheduler.md R160). An instance that is Stopped, from which a `START` begins, has that property. -/
def Obligations.ReadySchedulerNeverStarvesTheEngine : Prop :=
  (∀ (p : Params) (d : Ddfs), d.Inv p → d.state = .stopped → d.WellFed p) ∧
  ∀ (s t : State) (i : Nat) (d : Ddfs), s.Inv → step s = .next t → s.insts[i]? = some d →
    s.currentInputs.schedReady.getLsbD i = true → d.WellFed s.params →
    ∃ e, t.insts[i]? = some e ∧ e.WellFed s.params ∧
      (e.underrunCnt = d.underrunCnt ∨ e.underrunCnt = 0#32)

/-- Fatal is left only by `rst`: no command and no event of a cycle without `rst` changes `STATE`, and
the instance owns no line (43_controller.md R216, 60_exceptions.md R266). -/
def Obligations.FatalIsLeftOnlyByReset : Prop :=
  ∀ (s t : State) (i : Nat) (d : Ddfs), s.Inv → step s = .next t → s.currentInputs.rst = false →
    s.insts[i]? = some d → d.state = .fatal →
    ∃ e, t.insts[i]? = some e ∧ e.state = .fatal ∧ e.own = false ∧ e.q = []

/-- Loss of the output hardware takes an owning instance to Fatal in the same cycle, releasing the
lines, and has no effect on one that owns none (60_exceptions.md R266, 44_cycle.md R242). -/
def Obligations.LineLossIsFatalToAnOwner : Prop :=
  ∀ (p : Params) (ready : Bool) (d : Ddfs),
    (d.own = true → d.afterHost p true ready =
      { d with
        state := .fatal, stopPending := false, stalled := false, q := [], ePhase := .idle, out := 0#4,
        own := false, ph := false, dcnt := 0#40, scnt := 0#8 }) ∧
    (d.own = false → d.afterHost p true ready = d.afterHost p false ready)

/-- Simultaneous events follow the phase order (60_exceptions.md R268): forced stop with line loss is
Stopped; graceful stop with line loss is Fatal; a successful `START` with line loss is Fatal; a graceful
teardown at `DRIVE` leaves the channel empty although the scheduler would push; `CLR_UNDERRUN` with
the first stall cycle of an episode leaves the counter at 1. -/
def Obligations.SimultaneousEventsFollowThePhaseOrder : Prop :=
  ∀ (p : Params) (ready : Bool) (d : Ddfs),
    (d.state = .running → ((d.stopCommand true).afterHost p true ready).state = .stopped) ∧
    (d.state = .running → d.own = true →
      ((d.stopCommand false).afterHost p true ready).state = .fatal) ∧
    (∀ pinBase pat inc,
      ((d.startRun pinBase pat inc).afterHost p true ready).state = .fatal) ∧
    (d.state = .running → d.ePhase = .drive →
      ((d.stopCommand false).afterHost p false ready).q = [] ∧
      ((d.stopCommand false).afterHost p false ready).state = .stopped) ∧
    (d.state = .running → d.ePhase = .load → d.stopPending = false → d.stalled = false → d.q = [] →
      (d.clrUnderrunCommand.afterHost p false ready).underrunCnt = 1#32)

/-- Instances are independent: two blocks that agree on instance `i`, on its draws and on `rst`, and
whose hosts do not access its window in the cycle, agree on instance `i` after the cycle, whatever
their other instances and accesses (44_cycle.md R248). -/
def Obligations.InstancesAreIndependent : Prop :=
  ∀ (s s' t t' : State) (i : Nat), step s = .next t → step s' = .next t' →
    s.params = s'.params → s.insts[i]? = s'.insts[i]? →
    s.currentInputs.rst = s'.currentInputs.rst →
    s.currentInputs.schedReady.getLsbD i = s'.currentInputs.schedReady.getLsbD i →
    s.currentInputs.linesLost.getLsbD i = s'.currentInputs.linesLost.getLsbD i →
    ¬ s.accessesWindow i → ¬ s'.accessesWindow i →
    t.insts[i]? = t'.insts[i]?

/-- The units of an instance run on its own state: in a cycle without `rst` and without an access to its
window, instance `i` becomes `afterHost` of itself, its line-loss, unit and promotion phases under its
own draws (44_cycle.md R242, R243, R244, R248). So the statements on `afterHost`, `unitPhase` and
`quietRun` speak of a block's cycles. -/
def Obligations.UnaccessedInstanceRunsItsUnits : Prop :=
  ∀ (s t : State) (i : Nat) (d : Ddfs), step s = .next t → s.currentInputs.rst = false →
    s.insts[i]? = some d → ¬ s.accessesWindow i →
    t.insts[i]? = some (d.afterHost s.params (s.currentInputs.linesLost.getLsbD i)
      (s.currentInputs.schedReady.getLsbD i))

/-- The level of a line is bit `j - PIN_BASE` of its owner's `OUT`, and a line without an owner is not
driven (44_cycle.md R246). -/
def Obligations.LinesShowTheirOwnersOutput : Prop :=
  ∀ (s : State) (j : Nat), s.Inv → j < s.params.nLines →
    (∀ (i : Nat) (d : Ddfs), s.insts[i]? = some d → d.own = true → d.pinBase.toNat ≤ j →
      j ≤ d.pinBase.toNat + 3 →
      s.observe[j]? = some (if d.out.getLsbD (j - d.pinBase.toNat) then .high else .low)) ∧
    ((∀ d ∈ s.insts, ¬(d.own = true ∧ d.pinBase.toNat ≤ j ∧ j ≤ d.pinBase.toNat + 3)) →
      s.observe[j]? = some .notDriven)
end

