-- ==== Sys2Proof/Laws/State.lean ====
section
/-! SUPPORT. One lemma per field per update of the named operations on an instance and on the block. -/

namespace Sys2Proof.Machine

@[simp] theorem Ddfs.withResult_clkHz (code : Result) (d : Ddfs) : (d.withResult code).clkHz = d.clkHz := rfl
@[simp] theorem Ddfs.withResult_targetLo (code : Result) (d : Ddfs) : (d.withResult code).targetLo = d.targetLo := rfl
@[simp] theorem Ddfs.withResult_targetHi (code : Result) (d : Ddfs) : (d.withResult code).targetHi = d.targetHi := rfl
@[simp] theorem Ddfs.withResult_underrunCnt (code : Result) (d : Ddfs) : (d.withResult code).underrunCnt = d.underrunCnt := rfl
@[simp] theorem Ddfs.withResult_inc (code : Result) (d : Ddfs) : (d.withResult code).inc = d.inc := rfl
@[simp] theorem Ddfs.withResult_acc (code : Result) (d : Ddfs) : (d.withResult code).acc = d.acc := rfl
@[simp] theorem Ddfs.withResult_clkAct (code : Result) (d : Ddfs) : (d.withResult code).clkAct = d.clkAct := rfl
@[simp] theorem Ddfs.withResult_x (code : Result) (d : Ddfs) : (d.withResult code).x = d.x := rfl
@[simp] theorem Ddfs.withResult_state (code : Result) (d : Ddfs) : (d.withResult code).state = d.state := rfl
@[simp] theorem Ddfs.withResult_stopPending (code : Result) (d : Ddfs) : (d.withResult code).stopPending = d.stopPending := rfl
@[simp] theorem Ddfs.withResult_stalled (code : Result) (d : Ddfs) : (d.withResult code).stalled = d.stalled := rfl
@[simp] theorem Ddfs.withResult_result (code : Result) (d : Ddfs) : (d.withResult code).result = code := rfl
@[simp] theorem Ddfs.withResult_q (code : Result) (d : Ddfs) : (d.withResult code).q = d.q := rfl
@[simp] theorem Ddfs.withResult_ph (code : Result) (d : Ddfs) : (d.withResult code).ph = d.ph := rfl
@[simp] theorem Ddfs.withResult_own (code : Result) (d : Ddfs) : (d.withResult code).own = d.own := rfl
@[simp] theorem Ddfs.withResult_out (code : Result) (d : Ddfs) : (d.withResult code).out = d.out := rfl
@[simp] theorem Ddfs.withResult_ePhase (code : Result) (d : Ddfs) : (d.withResult code).ePhase = d.ePhase := rfl
@[simp] theorem Ddfs.withResult_pinBase (code : Result) (d : Ddfs) : (d.withResult code).pinBase = d.pinBase := rfl
@[simp] theorem Ddfs.withResult_patA (code : Result) (d : Ddfs) : (d.withResult code).patA = d.patA := rfl
@[simp] theorem Ddfs.withResult_dcnt (code : Result) (d : Ddfs) : (d.withResult code).dcnt = d.dcnt := rfl
@[simp] theorem Ddfs.withResult_scnt (code : Result) (d : Ddfs) : (d.withResult code).scnt = d.scnt := rfl

@[simp] theorem Ddfs.fail_clkHz (code : Result) (d : Ddfs) : (d.fail code).clkHz = d.clkHz := rfl
@[simp] theorem Ddfs.fail_targetLo (code : Result) (d : Ddfs) : (d.fail code).targetLo = d.targetLo := rfl
@[simp] theorem Ddfs.fail_targetHi (code : Result) (d : Ddfs) : (d.fail code).targetHi = d.targetHi := rfl
@[simp] theorem Ddfs.fail_underrunCnt (code : Result) (d : Ddfs) : (d.fail code).underrunCnt = d.underrunCnt := rfl
@[simp] theorem Ddfs.fail_inc (code : Result) (d : Ddfs) : (d.fail code).inc = d.inc := rfl
@[simp] theorem Ddfs.fail_acc (code : Result) (d : Ddfs) : (d.fail code).acc = d.acc := rfl
@[simp] theorem Ddfs.fail_clkAct (code : Result) (d : Ddfs) : (d.fail code).clkAct = d.clkAct := rfl
@[simp] theorem Ddfs.fail_x (code : Result) (d : Ddfs) : (d.fail code).x = d.x := rfl
@[simp] theorem Ddfs.fail_state (code : Result) (d : Ddfs) : (d.fail code).state = d.state := rfl
@[simp] theorem Ddfs.fail_stopPending (code : Result) (d : Ddfs) : (d.fail code).stopPending = d.stopPending := rfl
@[simp] theorem Ddfs.fail_stalled (code : Result) (d : Ddfs) : (d.fail code).stalled = d.stalled := rfl
@[simp] theorem Ddfs.fail_result (code : Result) (d : Ddfs) : (d.fail code).result = code := rfl
@[simp] theorem Ddfs.fail_q (code : Result) (d : Ddfs) : (d.fail code).q = d.q := rfl
@[simp] theorem Ddfs.fail_ph (code : Result) (d : Ddfs) : (d.fail code).ph = d.ph := rfl
@[simp] theorem Ddfs.fail_own (code : Result) (d : Ddfs) : (d.fail code).own = d.own := rfl
@[simp] theorem Ddfs.fail_out (code : Result) (d : Ddfs) : (d.fail code).out = d.out := rfl
@[simp] theorem Ddfs.fail_ePhase (code : Result) (d : Ddfs) : (d.fail code).ePhase = d.ePhase := rfl
@[simp] theorem Ddfs.fail_pinBase (code : Result) (d : Ddfs) : (d.fail code).pinBase = d.pinBase := rfl
@[simp] theorem Ddfs.fail_patA (code : Result) (d : Ddfs) : (d.fail code).patA = d.patA := rfl
@[simp] theorem Ddfs.fail_dcnt (code : Result) (d : Ddfs) : (d.fail code).dcnt = d.dcnt := rfl
@[simp] theorem Ddfs.fail_scnt (code : Result) (d : Ddfs) : (d.fail code).scnt = d.scnt := rfl

@[simp] theorem Ddfs.succeed_clkHz (d : Ddfs) : (d.succeed).clkHz = d.clkHz := rfl
@[simp] theorem Ddfs.succeed_targetLo (d : Ddfs) : (d.succeed).targetLo = d.targetLo := rfl
@[simp] theorem Ddfs.succeed_targetHi (d : Ddfs) : (d.succeed).targetHi = d.targetHi := rfl
@[simp] theorem Ddfs.succeed_underrunCnt (d : Ddfs) : (d.succeed).underrunCnt = d.underrunCnt := rfl
@[simp] theorem Ddfs.succeed_inc (d : Ddfs) : (d.succeed).inc = d.inc := rfl
@[simp] theorem Ddfs.succeed_acc (d : Ddfs) : (d.succeed).acc = d.acc := rfl
@[simp] theorem Ddfs.succeed_clkAct (d : Ddfs) : (d.succeed).clkAct = d.clkAct := rfl
@[simp] theorem Ddfs.succeed_x (d : Ddfs) : (d.succeed).x = d.x := rfl
@[simp] theorem Ddfs.succeed_state (d : Ddfs) : (d.succeed).state = d.state := rfl
@[simp] theorem Ddfs.succeed_stopPending (d : Ddfs) : (d.succeed).stopPending = d.stopPending := rfl
@[simp] theorem Ddfs.succeed_stalled (d : Ddfs) : (d.succeed).stalled = d.stalled := rfl
@[simp] theorem Ddfs.succeed_result (d : Ddfs) : (d.succeed).result = .ok := rfl
@[simp] theorem Ddfs.succeed_q (d : Ddfs) : (d.succeed).q = d.q := rfl
@[simp] theorem Ddfs.succeed_ph (d : Ddfs) : (d.succeed).ph = d.ph := rfl
@[simp] theorem Ddfs.succeed_own (d : Ddfs) : (d.succeed).own = d.own := rfl
@[simp] theorem Ddfs.succeed_out (d : Ddfs) : (d.succeed).out = d.out := rfl
@[simp] theorem Ddfs.succeed_ePhase (d : Ddfs) : (d.succeed).ePhase = d.ePhase := rfl
@[simp] theorem Ddfs.succeed_pinBase (d : Ddfs) : (d.succeed).pinBase = d.pinBase := rfl
@[simp] theorem Ddfs.succeed_patA (d : Ddfs) : (d.succeed).patA = d.patA := rfl
@[simp] theorem Ddfs.succeed_dcnt (d : Ddfs) : (d.succeed).dcnt = d.dcnt := rfl
@[simp] theorem Ddfs.succeed_scnt (d : Ddfs) : (d.succeed).scnt = d.scnt := rfl

@[simp] theorem Ddfs.push_clkHz (c : Word) (d : Ddfs) : (d.push c).clkHz = d.clkHz := rfl
@[simp] theorem Ddfs.push_targetLo (c : Word) (d : Ddfs) : (d.push c).targetLo = d.targetLo := rfl
@[simp] theorem Ddfs.push_targetHi (c : Word) (d : Ddfs) : (d.push c).targetHi = d.targetHi := rfl
@[simp] theorem Ddfs.push_underrunCnt (c : Word) (d : Ddfs) : (d.push c).underrunCnt = d.underrunCnt := rfl
@[simp] theorem Ddfs.push_inc (c : Word) (d : Ddfs) : (d.push c).inc = d.inc := rfl
@[simp] theorem Ddfs.push_acc (c : Word) (d : Ddfs) : (d.push c).acc = d.acc := rfl
@[simp] theorem Ddfs.push_clkAct (c : Word) (d : Ddfs) : (d.push c).clkAct = d.clkAct := rfl
@[simp] theorem Ddfs.push_x (c : Word) (d : Ddfs) : (d.push c).x = d.x := rfl
@[simp] theorem Ddfs.push_state (c : Word) (d : Ddfs) : (d.push c).state = d.state := rfl
@[simp] theorem Ddfs.push_stopPending (c : Word) (d : Ddfs) : (d.push c).stopPending = d.stopPending := rfl
@[simp] theorem Ddfs.push_stalled (c : Word) (d : Ddfs) : (d.push c).stalled = d.stalled := rfl
@[simp] theorem Ddfs.push_result (c : Word) (d : Ddfs) : (d.push c).result = d.result := rfl
@[simp] theorem Ddfs.push_q (c : Word) (d : Ddfs) : (d.push c).q = d.q ++ [c] := rfl
@[simp] theorem Ddfs.push_ph (c : Word) (d : Ddfs) : (d.push c).ph = d.ph := rfl
@[simp] theorem Ddfs.push_own (c : Word) (d : Ddfs) : (d.push c).own = d.own := rfl
@[simp] theorem Ddfs.push_out (c : Word) (d : Ddfs) : (d.push c).out = d.out := rfl
@[simp] theorem Ddfs.push_ePhase (c : Word) (d : Ddfs) : (d.push c).ePhase = d.ePhase := rfl
@[simp] theorem Ddfs.push_pinBase (c : Word) (d : Ddfs) : (d.push c).pinBase = d.pinBase := rfl
@[simp] theorem Ddfs.push_patA (c : Word) (d : Ddfs) : (d.push c).patA = d.patA := rfl
@[simp] theorem Ddfs.push_dcnt (c : Word) (d : Ddfs) : (d.push c).dcnt = d.dcnt := rfl
@[simp] theorem Ddfs.push_scnt (c : Word) (d : Ddfs) : (d.push c).scnt = d.scnt := rfl

@[simp] theorem Ddfs.pop_clkHz (d : Ddfs) : (d.pop).clkHz = d.clkHz := rfl
@[simp] theorem Ddfs.pop_targetLo (d : Ddfs) : (d.pop).targetLo = d.targetLo := rfl
@[simp] theorem Ddfs.pop_targetHi (d : Ddfs) : (d.pop).targetHi = d.targetHi := rfl
@[simp] theorem Ddfs.pop_underrunCnt (d : Ddfs) : (d.pop).underrunCnt = d.underrunCnt := rfl
@[simp] theorem Ddfs.pop_inc (d : Ddfs) : (d.pop).inc = d.inc := rfl
@[simp] theorem Ddfs.pop_acc (d : Ddfs) : (d.pop).acc = d.acc := rfl
@[simp] theorem Ddfs.pop_clkAct (d : Ddfs) : (d.pop).clkAct = d.clkAct := rfl
@[simp] theorem Ddfs.pop_x (d : Ddfs) : (d.pop).x = d.x := rfl
@[simp] theorem Ddfs.pop_state (d : Ddfs) : (d.pop).state = d.state := rfl
@[simp] theorem Ddfs.pop_stopPending (d : Ddfs) : (d.pop).stopPending = d.stopPending := rfl
@[simp] theorem Ddfs.pop_stalled (d : Ddfs) : (d.pop).stalled = d.stalled := rfl
@[simp] theorem Ddfs.pop_result (d : Ddfs) : (d.pop).result = d.result := rfl
@[simp] theorem Ddfs.pop_q (d : Ddfs) : (d.pop).q = d.q.tail := rfl
@[simp] theorem Ddfs.pop_ph (d : Ddfs) : (d.pop).ph = d.ph := rfl
@[simp] theorem Ddfs.pop_own (d : Ddfs) : (d.pop).own = d.own := rfl
@[simp] theorem Ddfs.pop_out (d : Ddfs) : (d.pop).out = d.out := rfl
@[simp] theorem Ddfs.pop_ePhase (d : Ddfs) : (d.pop).ePhase = d.ePhase := rfl
@[simp] theorem Ddfs.pop_pinBase (d : Ddfs) : (d.pop).pinBase = d.pinBase := rfl
@[simp] theorem Ddfs.pop_patA (d : Ddfs) : (d.pop).patA = d.patA := rfl
@[simp] theorem Ddfs.pop_dcnt (d : Ddfs) : (d.pop).dcnt = d.dcnt := rfl
@[simp] theorem Ddfs.pop_scnt (d : Ddfs) : (d.pop).scnt = d.scnt := rfl

@[simp] theorem Ddfs.flush_clkHz (d : Ddfs) : (d.flush).clkHz = d.clkHz := rfl
@[simp] theorem Ddfs.flush_targetLo (d : Ddfs) : (d.flush).targetLo = d.targetLo := rfl
@[simp] theorem Ddfs.flush_targetHi (d : Ddfs) : (d.flush).targetHi = d.targetHi := rfl
@[simp] theorem Ddfs.flush_underrunCnt (d : Ddfs) : (d.flush).underrunCnt = d.underrunCnt := rfl
@[simp] theorem Ddfs.flush_inc (d : Ddfs) : (d.flush).inc = d.inc := rfl
@[simp] theorem Ddfs.flush_acc (d : Ddfs) : (d.flush).acc = d.acc := rfl
@[simp] theorem Ddfs.flush_clkAct (d : Ddfs) : (d.flush).clkAct = d.clkAct := rfl
@[simp] theorem Ddfs.flush_x (d : Ddfs) : (d.flush).x = d.x := rfl
@[simp] theorem Ddfs.flush_state (d : Ddfs) : (d.flush).state = d.state := rfl
@[simp] theorem Ddfs.flush_stopPending (d : Ddfs) : (d.flush).stopPending = d.stopPending := rfl
@[simp] theorem Ddfs.flush_stalled (d : Ddfs) : (d.flush).stalled = d.stalled := rfl
@[simp] theorem Ddfs.flush_result (d : Ddfs) : (d.flush).result = d.result := rfl
@[simp] theorem Ddfs.flush_q (d : Ddfs) : (d.flush).q = [] := rfl
@[simp] theorem Ddfs.flush_ph (d : Ddfs) : (d.flush).ph = d.ph := rfl
@[simp] theorem Ddfs.flush_own (d : Ddfs) : (d.flush).own = d.own := rfl
@[simp] theorem Ddfs.flush_out (d : Ddfs) : (d.flush).out = d.out := rfl
@[simp] theorem Ddfs.flush_ePhase (d : Ddfs) : (d.flush).ePhase = d.ePhase := rfl
@[simp] theorem Ddfs.flush_pinBase (d : Ddfs) : (d.flush).pinBase = d.pinBase := rfl
@[simp] theorem Ddfs.flush_patA (d : Ddfs) : (d.flush).patA = d.patA := rfl
@[simp] theorem Ddfs.flush_dcnt (d : Ddfs) : (d.flush).dcnt = d.dcnt := rfl
@[simp] theorem Ddfs.flush_scnt (d : Ddfs) : (d.flush).scnt = d.scnt := rfl

@[simp] theorem Ddfs.release_clkHz (st : RunState) (d : Ddfs) : (d.release st).clkHz = d.clkHz := rfl
@[simp] theorem Ddfs.release_targetLo (st : RunState) (d : Ddfs) : (d.release st).targetLo = d.targetLo := rfl
@[simp] theorem Ddfs.release_targetHi (st : RunState) (d : Ddfs) : (d.release st).targetHi = d.targetHi := rfl
@[simp] theorem Ddfs.release_underrunCnt (st : RunState) (d : Ddfs) : (d.release st).underrunCnt = d.underrunCnt := rfl
@[simp] theorem Ddfs.release_inc (st : RunState) (d : Ddfs) : (d.release st).inc = d.inc := rfl
@[simp] theorem Ddfs.release_acc (st : RunState) (d : Ddfs) : (d.release st).acc = d.acc := rfl
@[simp] theorem Ddfs.release_clkAct (st : RunState) (d : Ddfs) : (d.release st).clkAct = d.clkAct := rfl
@[simp] theorem Ddfs.release_x (st : RunState) (d : Ddfs) : (d.release st).x = d.x := rfl
@[simp] theorem Ddfs.release_state (st : RunState) (d : Ddfs) : (d.release st).state = st := rfl
@[simp] theorem Ddfs.release_stopPending (st : RunState) (d : Ddfs) : (d.release st).stopPending = false := rfl
@[simp] theorem Ddfs.release_stalled (st : RunState) (d : Ddfs) : (d.release st).stalled = false := rfl
@[simp] theorem Ddfs.release_result (st : RunState) (d : Ddfs) : (d.release st).result = d.result := rfl
@[simp] theorem Ddfs.release_q (st : RunState) (d : Ddfs) : (d.release st).q = [] := rfl
@[simp] theorem Ddfs.release_ph (st : RunState) (d : Ddfs) : (d.release st).ph = false := rfl
@[simp] theorem Ddfs.release_own (st : RunState) (d : Ddfs) : (d.release st).own = false := rfl
@[simp] theorem Ddfs.release_out (st : RunState) (d : Ddfs) : (d.release st).out = 0#4 := rfl
@[simp] theorem Ddfs.release_ePhase (st : RunState) (d : Ddfs) : (d.release st).ePhase = .idle := rfl
@[simp] theorem Ddfs.release_pinBase (st : RunState) (d : Ddfs) : (d.release st).pinBase = d.pinBase := rfl
@[simp] theorem Ddfs.release_patA (st : RunState) (d : Ddfs) : (d.release st).patA = d.patA := rfl
@[simp] theorem Ddfs.release_dcnt (st : RunState) (d : Ddfs) : (d.release st).dcnt = 0#40 := rfl
@[simp] theorem Ddfs.release_scnt (st : RunState) (d : Ddfs) : (d.release st).scnt = 0#8 := rfl

@[simp] theorem Ddfs.teardown_clkHz (d : Ddfs) : (d.teardown).clkHz = d.clkHz := rfl
@[simp] theorem Ddfs.teardown_targetLo (d : Ddfs) : (d.teardown).targetLo = d.targetLo := rfl
@[simp] theorem Ddfs.teardown_targetHi (d : Ddfs) : (d.teardown).targetHi = d.targetHi := rfl
@[simp] theorem Ddfs.teardown_underrunCnt (d : Ddfs) : (d.teardown).underrunCnt = d.underrunCnt := rfl
@[simp] theorem Ddfs.teardown_inc (d : Ddfs) : (d.teardown).inc = d.inc := rfl
@[simp] theorem Ddfs.teardown_acc (d : Ddfs) : (d.teardown).acc = d.acc := rfl
@[simp] theorem Ddfs.teardown_clkAct (d : Ddfs) : (d.teardown).clkAct = d.clkAct := rfl
@[simp] theorem Ddfs.teardown_x (d : Ddfs) : (d.teardown).x = d.x := rfl
@[simp] theorem Ddfs.teardown_state (d : Ddfs) : (d.teardown).state = .stopped := rfl
@[simp] theorem Ddfs.teardown_stopPending (d : Ddfs) : (d.teardown).stopPending = false := rfl
@[simp] theorem Ddfs.teardown_stalled (d : Ddfs) : (d.teardown).stalled = false := rfl
@[simp] theorem Ddfs.teardown_result (d : Ddfs) : (d.teardown).result = d.result := rfl
@[simp] theorem Ddfs.teardown_q (d : Ddfs) : (d.teardown).q = [] := rfl
@[simp] theorem Ddfs.teardown_ph (d : Ddfs) : (d.teardown).ph = false := rfl
@[simp] theorem Ddfs.teardown_own (d : Ddfs) : (d.teardown).own = false := rfl
@[simp] theorem Ddfs.teardown_out (d : Ddfs) : (d.teardown).out = 0#4 := rfl
@[simp] theorem Ddfs.teardown_ePhase (d : Ddfs) : (d.teardown).ePhase = .idle := rfl
@[simp] theorem Ddfs.teardown_pinBase (d : Ddfs) : (d.teardown).pinBase = d.pinBase := rfl
@[simp] theorem Ddfs.teardown_patA (d : Ddfs) : (d.teardown).patA = d.patA := rfl
@[simp] theorem Ddfs.teardown_dcnt (d : Ddfs) : (d.teardown).dcnt = 0#40 := rfl
@[simp] theorem Ddfs.teardown_scnt (d : Ddfs) : (d.teardown).scnt = 0#8 := rfl

@[simp] theorem Ddfs.loseLines_clkHz (d : Ddfs) : (d.loseLines).clkHz = d.clkHz := rfl
@[simp] theorem Ddfs.loseLines_targetLo (d : Ddfs) : (d.loseLines).targetLo = d.targetLo := rfl
@[simp] theorem Ddfs.loseLines_targetHi (d : Ddfs) : (d.loseLines).targetHi = d.targetHi := rfl
@[simp] theorem Ddfs.loseLines_underrunCnt (d : Ddfs) : (d.loseLines).underrunCnt = d.underrunCnt := rfl
@[simp] theorem Ddfs.loseLines_inc (d : Ddfs) : (d.loseLines).inc = d.inc := rfl
@[simp] theorem Ddfs.loseLines_acc (d : Ddfs) : (d.loseLines).acc = d.acc := rfl
@[simp] theorem Ddfs.loseLines_clkAct (d : Ddfs) : (d.loseLines).clkAct = d.clkAct := rfl
@[simp] theorem Ddfs.loseLines_x (d : Ddfs) : (d.loseLines).x = d.x := rfl
@[simp] theorem Ddfs.loseLines_state (d : Ddfs) : (d.loseLines).state = .fatal := rfl
@[simp] theorem Ddfs.loseLines_stopPending (d : Ddfs) : (d.loseLines).stopPending = false := rfl
@[simp] theorem Ddfs.loseLines_stalled (d : Ddfs) : (d.loseLines).stalled = false := rfl
@[simp] theorem Ddfs.loseLines_result (d : Ddfs) : (d.loseLines).result = d.result := rfl
@[simp] theorem Ddfs.loseLines_q (d : Ddfs) : (d.loseLines).q = [] := rfl
@[simp] theorem Ddfs.loseLines_ph (d : Ddfs) : (d.loseLines).ph = false := rfl
@[simp] theorem Ddfs.loseLines_own (d : Ddfs) : (d.loseLines).own = false := rfl
@[simp] theorem Ddfs.loseLines_out (d : Ddfs) : (d.loseLines).out = 0#4 := rfl
@[simp] theorem Ddfs.loseLines_ePhase (d : Ddfs) : (d.loseLines).ePhase = .idle := rfl
@[simp] theorem Ddfs.loseLines_pinBase (d : Ddfs) : (d.loseLines).pinBase = d.pinBase := rfl
@[simp] theorem Ddfs.loseLines_patA (d : Ddfs) : (d.loseLines).patA = d.patA := rfl
@[simp] theorem Ddfs.loseLines_dcnt (d : Ddfs) : (d.loseLines).dcnt = 0#40 := rfl
@[simp] theorem Ddfs.loseLines_scnt (d : Ddfs) : (d.loseLines).scnt = 0#8 := rfl

@[simp] theorem Ddfs.startRun_clkHz (pinBase : BitVec 5) (pat : BitVec 4) (inc : DWord) (d : Ddfs) : (d.startRun pinBase pat inc).clkHz = d.clkHz := rfl
@[simp] theorem Ddfs.startRun_targetLo (pinBase : BitVec 5) (pat : BitVec 4) (inc : DWord) (d : Ddfs) : (d.startRun pinBase pat inc).targetLo = d.targetLo := rfl
@[simp] theorem Ddfs.startRun_targetHi (pinBase : BitVec 5) (pat : BitVec 4) (inc : DWord) (d : Ddfs) : (d.startRun pinBase pat inc).targetHi = d.targetHi := rfl
@[simp] theorem Ddfs.startRun_underrunCnt (pinBase : BitVec 5) (pat : BitVec 4) (inc : DWord) (d : Ddfs) : (d.startRun pinBase pat inc).underrunCnt = 0#32 := rfl
@[simp] theorem Ddfs.startRun_inc (pinBase : BitVec 5) (pat : BitVec 4) (inc : DWord) (d : Ddfs) : (d.startRun pinBase pat inc).inc = inc := rfl
@[simp] theorem Ddfs.startRun_acc (pinBase : BitVec 5) (pat : BitVec 4) (inc : DWord) (d : Ddfs) : (d.startRun pinBase pat inc).acc = 0#32 := rfl
@[simp] theorem Ddfs.startRun_clkAct (pinBase : BitVec 5) (pat : BitVec 4) (inc : DWord) (d : Ddfs) : (d.startRun pinBase pat inc).clkAct = d.clkHz := rfl
@[simp] theorem Ddfs.startRun_x (pinBase : BitVec 5) (pat : BitVec 4) (inc : DWord) (d : Ddfs) : (d.startRun pinBase pat inc).x = d.x := rfl
@[simp] theorem Ddfs.startRun_state (pinBase : BitVec 5) (pat : BitVec 4) (inc : DWord) (d : Ddfs) : (d.startRun pinBase pat inc).state = .initializing := rfl
@[simp] theorem Ddfs.startRun_stopPending (pinBase : BitVec 5) (pat : BitVec 4) (inc : DWord) (d : Ddfs) : (d.startRun pinBase pat inc).stopPending = false := rfl
@[simp] theorem Ddfs.startRun_stalled (pinBase : BitVec 5) (pat : BitVec 4) (inc : DWord) (d : Ddfs) : (d.startRun pinBase pat inc).stalled = false := rfl
@[simp] theorem Ddfs.startRun_result (pinBase : BitVec 5) (pat : BitVec 4) (inc : DWord) (d : Ddfs) : (d.startRun pinBase pat inc).result = .ok := rfl
@[simp] theorem Ddfs.startRun_q (pinBase : BitVec 5) (pat : BitVec 4) (inc : DWord) (d : Ddfs) : (d.startRun pinBase pat inc).q = [] := rfl
@[simp] theorem Ddfs.startRun_ph (pinBase : BitVec 5) (pat : BitVec 4) (inc : DWord) (d : Ddfs) : (d.startRun pinBase pat inc).ph = false := rfl
@[simp] theorem Ddfs.startRun_own (pinBase : BitVec 5) (pat : BitVec 4) (inc : DWord) (d : Ddfs) : (d.startRun pinBase pat inc).own = true := rfl
@[simp] theorem Ddfs.startRun_out (pinBase : BitVec 5) (pat : BitVec 4) (inc : DWord) (d : Ddfs) : (d.startRun pinBase pat inc).out = complement4 pat := rfl
@[simp] theorem Ddfs.startRun_ePhase (pinBase : BitVec 5) (pat : BitVec 4) (inc : DWord) (d : Ddfs) : (d.startRun pinBase pat inc).ePhase = .idle := rfl
@[simp] theorem Ddfs.startRun_pinBase (pinBase : BitVec 5) (pat : BitVec 4) (inc : DWord) (d : Ddfs) : (d.startRun pinBase pat inc).pinBase = pinBase := rfl
@[simp] theorem Ddfs.startRun_patA (pinBase : BitVec 5) (pat : BitVec 4) (inc : DWord) (d : Ddfs) : (d.startRun pinBase pat inc).patA = pat := rfl
@[simp] theorem Ddfs.startRun_dcnt (pinBase : BitVec 5) (pat : BitVec 4) (inc : DWord) (d : Ddfs) : (d.startRun pinBase pat inc).dcnt = d.dcnt := rfl
@[simp] theorem Ddfs.startRun_scnt (pinBase : BitVec 5) (pat : BitVec 4) (inc : DWord) (d : Ddfs) : (d.startRun pinBase pat inc).scnt = d.scnt := rfl

@[simp] theorem Ddfs.schedStep_clkHz (p : Params) (d : Ddfs) : (d.schedStep p).clkHz = d.clkHz := rfl
@[simp] theorem Ddfs.schedStep_targetLo (p : Params) (d : Ddfs) : (d.schedStep p).targetLo = d.targetLo := rfl
@[simp] theorem Ddfs.schedStep_targetHi (p : Params) (d : Ddfs) : (d.schedStep p).targetHi = d.targetHi := rfl
@[simp] theorem Ddfs.schedStep_underrunCnt (p : Params) (d : Ddfs) : (d.schedStep p).underrunCnt = d.underrunCnt := rfl
@[simp] theorem Ddfs.schedStep_inc (p : Params) (d : Ddfs) : (d.schedStep p).inc = d.inc := rfl
@[simp] theorem Ddfs.schedStep_acc (p : Params) (d : Ddfs) : (d.schedStep p).acc = d.nextAcc := rfl
@[simp] theorem Ddfs.schedStep_clkAct (p : Params) (d : Ddfs) : (d.schedStep p).clkAct = d.clkAct := rfl
@[simp] theorem Ddfs.schedStep_x (p : Params) (d : Ddfs) : (d.schedStep p).x = d.x := rfl
@[simp] theorem Ddfs.schedStep_state (p : Params) (d : Ddfs) : (d.schedStep p).state = d.state := rfl
@[simp] theorem Ddfs.schedStep_stopPending (p : Params) (d : Ddfs) : (d.schedStep p).stopPending = d.stopPending := rfl
@[simp] theorem Ddfs.schedStep_stalled (p : Params) (d : Ddfs) : (d.schedStep p).stalled = d.stalled := rfl
@[simp] theorem Ddfs.schedStep_result (p : Params) (d : Ddfs) : (d.schedStep p).result = d.result := rfl
@[simp] theorem Ddfs.schedStep_q (p : Params) (d : Ddfs) : (d.schedStep p).q = d.q ++ [d.nextCount p] := rfl
@[simp] theorem Ddfs.schedStep_ph (p : Params) (d : Ddfs) : (d.schedStep p).ph = d.ph := rfl
@[simp] theorem Ddfs.schedStep_own (p : Params) (d : Ddfs) : (d.schedStep p).own = d.own := rfl
@[simp] theorem Ddfs.schedStep_out (p : Params) (d : Ddfs) : (d.schedStep p).out = d.out := rfl
@[simp] theorem Ddfs.schedStep_ePhase (p : Params) (d : Ddfs) : (d.schedStep p).ePhase = d.ePhase := rfl
@[simp] theorem Ddfs.schedStep_pinBase (p : Params) (d : Ddfs) : (d.schedStep p).pinBase = d.pinBase := rfl
@[simp] theorem Ddfs.schedStep_patA (p : Params) (d : Ddfs) : (d.schedStep p).patA = d.patA := rfl
@[simp] theorem Ddfs.schedStep_dcnt (p : Params) (d : Ddfs) : (d.schedStep p).dcnt = d.dcnt := rfl
@[simp] theorem Ddfs.schedStep_scnt (p : Params) (d : Ddfs) : (d.schedStep p).scnt = d.scnt := rfl

@[simp] theorem State.modifyInst_params (i : Nat) (f : Ddfs → Ddfs) (s : State) : (s.modifyInst i f).params = s.params := rfl
@[simp] theorem State.modifyInst_insts (i : Nat) (f : Ddfs → Ddfs) (s : State) : (s.modifyInst i f).insts = s.insts.modify i f := rfl
@[simp] theorem State.modifyInst_inputs (i : Nat) (f : Ddfs → Ddfs) (s : State) : (s.modifyInst i f).inputs = s.inputs := rfl
@[simp] theorem State.modifyInst_cycle (i : Nat) (f : Ddfs → Ddfs) (s : State) : (s.modifyInst i f).cycle = s.cycle := rfl
@[simp] theorem State.modifyInst_linesAvail (i : Nat) (f : Ddfs → Ddfs) (s : State) : (s.modifyInst i f).linesAvail = s.linesAvail := rfl
@[simp] theorem State.modifyInst_cmdWindow (i : Nat) (f : Ddfs → Ddfs) (s : State) : (s.modifyInst i f).cmdWindow = s.cmdWindow := rfl
@[simp] theorem State.modifyInst_readData (i : Nat) (f : Ddfs → Ddfs) (s : State) : (s.modifyInst i f).readData = s.readData := rfl

@[simp] theorem State.onTarget_params (f : Ddfs → Ddfs) (s : State) : (s.onTarget f).params = s.params := rfl
@[simp] theorem State.onTarget_insts (f : Ddfs → Ddfs) (s : State) : (s.onTarget f).insts = s.insts.modify s.cmdWindow f := rfl
@[simp] theorem State.onTarget_inputs (f : Ddfs → Ddfs) (s : State) : (s.onTarget f).inputs = s.inputs := rfl
@[simp] theorem State.onTarget_cycle (f : Ddfs → Ddfs) (s : State) : (s.onTarget f).cycle = s.cycle := rfl
@[simp] theorem State.onTarget_linesAvail (f : Ddfs → Ddfs) (s : State) : (s.onTarget f).linesAvail = s.linesAvail := rfl
@[simp] theorem State.onTarget_cmdWindow (f : Ddfs → Ddfs) (s : State) : (s.onTarget f).cmdWindow = s.cmdWindow := rfl
@[simp] theorem State.onTarget_readData (f : Ddfs → Ddfs) (s : State) : (s.onTarget f).readData = s.readData := rfl

@[simp] theorem State.sample_params (c : CycleInputs) (s : State) : (s.sample c).params = s.params := rfl
@[simp] theorem State.sample_insts (c : CycleInputs) (s : State) : (s.sample c).insts = s.insts := rfl
@[simp] theorem State.sample_inputs (c : CycleInputs) (s : State) : (s.sample c).inputs = s.inputs.tail := rfl
@[simp] theorem State.sample_cycle (c : CycleInputs) (s : State) : (s.sample c).cycle = s.cycle + 1 := rfl
@[simp] theorem State.sample_linesAvail (c : CycleInputs) (s : State) : (s.sample c).linesAvail = c.linesAvail := rfl
@[simp] theorem State.sample_cmdWindow (c : CycleInputs) (s : State) : (s.sample c).cmdWindow = s.cmdWindow := rfl
@[simp] theorem State.sample_readData (c : CycleInputs) (s : State) : (s.sample c).readData = none := rfl

@[simp] theorem State.resetCycle_params (s : State) : (s.resetCycle).params = s.params := rfl
@[simp] theorem State.resetCycle_insts (s : State) : (s.resetCycle).insts = List.replicate s.params.nInst Ddfs.reset := rfl
@[simp] theorem State.resetCycle_inputs (s : State) : (s.resetCycle).inputs = s.inputs := rfl
@[simp] theorem State.resetCycle_cycle (s : State) : (s.resetCycle).cycle = s.cycle := rfl
@[simp] theorem State.resetCycle_linesAvail (s : State) : (s.resetCycle).linesAvail = s.linesAvail := rfl
@[simp] theorem State.resetCycle_cmdWindow (s : State) : (s.resetCycle).cmdWindow = s.cmdWindow := rfl
@[simp] theorem State.resetCycle_readData (s : State) : (s.resetCycle).readData = some 0#32 := rfl

@[simp] theorem State.unitsPhase_params (c : CycleInputs) (s : State) : (s.unitsPhase c).params = s.params := rfl
@[simp] theorem State.unitsPhase_insts (c : CycleInputs) (s : State) : (s.unitsPhase c).insts =
    mapFrom (fun i => Ddfs.afterHost s.params (c.linesLost.getLsbD i) (c.schedReady.getLsbD i)) 0 s.insts := rfl
@[simp] theorem State.unitsPhase_inputs (c : CycleInputs) (s : State) : (s.unitsPhase c).inputs = s.inputs := rfl
@[simp] theorem State.unitsPhase_cycle (c : CycleInputs) (s : State) : (s.unitsPhase c).cycle = s.cycle := rfl
@[simp] theorem State.unitsPhase_linesAvail (c : CycleInputs) (s : State) : (s.unitsPhase c).linesAvail = s.linesAvail := rfl
@[simp] theorem State.unitsPhase_cmdWindow (c : CycleInputs) (s : State) : (s.unitsPhase c).cmdWindow = s.cmdWindow := rfl
@[simp] theorem State.unitsPhase_readData (c : CycleInputs) (s : State) : (s.unitsPhase c).readData = s.readData := rfl

end Sys2Proof.Machine
end

