-- ==== Sys2Proof/Laws/Ops.lean ====
section
/-! SUPPORT. One specification lemma per shared operation: what each can do, said once. -/

namespace Sys2Proof.Machine

@[simp] theorem mapFrom_length (f : Nat → Ddfs → Ddfs) (k : Nat) (l : List Ddfs) :
    (mapFrom f k l).length = l.length := by
  induction l generalizing k with
  | nil => rfl
  | cons d ds ih => simp [mapFrom, ih]

theorem mapFrom_getElem? (f : Nat → Ddfs → Ddfs) (k : Nat) (l : List Ddfs) (i : Nat) :
    (mapFrom f k l)[i]? = (l[i]?).map (f (k + i)) := by
  induction l generalizing k i with
  | nil => simp [mapFrom]
  | cons d ds ih =>
    cases i with
    | zero => simp [mapFrom]
    | succ i => simp [mapFrom, ih, Nat.add_comm, Nat.add_left_comm]

/-- Instance `i` after the phases that follow the host phase. -/
theorem State.unitsPhase_getElem? (c : CycleInputs) (s : State) (i : Nat) :
    (s.unitsPhase c).insts[i]? =
      (s.insts[i]?).map
        (Ddfs.afterHost s.params (c.linesLost.getLsbD i) (c.schedReady.getLsbD i)) := by
  simp [mapFrom_getElem?]

/-- The instance with number `i` after an update of instance `j`. -/
theorem State.modifyInst_getElem? (j : Nat) (f : Ddfs → Ddfs) (s : State) (i : Nat) :
    (s.modifyInst j f).insts[i]? = if j = i then (s.insts[i]?).map f else s.insts[i]? := by
  by_cases h : j = i
  · subst h; simp
  · cases hi : s.insts[i]? <;> simp [h, hi]

/-- A command on an existing instance replaces that instance and nothing else. -/
theorem State.onTarget_eq_setTarget {s : State} {d : Ddfs} (h : s.targets d) (f : Ddfs → Ddfs) :
    s.onTarget f = s.setTarget (f d) := by
  have h' : s.insts[s.cmdWindow]? = some d := h
  have hm : s.insts.modify s.cmdWindow f = s.insts.set s.cmdWindow (f d) := by
    rw [List.modify_eq_set_getElem?, h']; rfl
  simp [State.onTarget, State.modifyInst, State.setTarget, hm]

/-- An update of an instance that does not exist changes nothing. -/
theorem State.modifyInst_of_none {s : State} {i : Nat} (h : s.insts[i]? = none) (f : Ddfs → Ddfs) :
    s.modifyInst i f = s := by
  simp [State.modifyInst, List.modify_eq_set_getElem?, h]

theorem thenNext_eq_next {o : Host.Outcome State Fault Refusal} {f : State → State} {t : State} :
    thenNext o f = .next t ↔ ∃ u, o = .next u ∧ t = f u := by
  cases o <;> simp [thenNext, eq_comm]

theorem thenNext_eq_refused {o : Host.Outcome State Fault Refusal} {f : State → State}
    {r : Refusal} : thenNext o f = .refused r ↔ o = .refused r := by
  cases o <;> simp [thenNext]

theorem Ddfs.ownsLineIn_iff {pb : Nat} {d : Ddfs} :
    d.ownsLineIn pb = true ↔
      d.own = true ∧ d.pinBase.toNat ≤ pb + 3 ∧ pb ≤ d.pinBase.toNat + 3 := by
  simp [Ddfs.ownsLineIn, and_assoc]

theorem ownedByOther_iff {i pb k : Nat} {l : List Ddfs} :
    ownedByOther i pb k l = true ↔
      ∃ (j : Nat) (e : Ddfs), l[j]? = some e ∧ k + j ≠ i ∧ e.ownsLineIn pb = true := by
  induction l generalizing k with
  | nil => simp [ownedByOther]
  | cons d ds ih =>
    simp only [ownedByOther, Bool.or_eq_true, Bool.and_eq_true, bne_iff_ne, ih]
    constructor
    · rintro (⟨h1, h2⟩ | ⟨j, e, h1, h2, h3⟩)
      · exact ⟨0, d, by simp, by simpa using h1, h2⟩
      · exact ⟨j + 1, e, by simpa using h1, by omega, h3⟩
    · rintro ⟨j, e, h1, h2, h3⟩
      cases j with
      | zero =>
        simp at h1; subst h1
        exact .inl ⟨by simpa using h2, h3⟩
      | succ j => exact .inr ⟨j, e, by simpa using h1, by omega, h3⟩

/-- `START`'s ownership check, as 43_controller.md R203 words it. -/
theorem State.linesTaken_iff {s : State} {pb : Nat} : s.linesTaken pb = true ↔ s.otherOwns pb := by
  simp only [State.linesTaken, ownedByOther_iff, Ddfs.ownsLineIn_iff, State.otherOwns]
  constructor
  · rintro ⟨j, e, h1, h2, h3, h4, h5⟩; exact ⟨j, e, by omega, h1, h3, h4, h5⟩
  · rintro ⟨j, e, h1, h2, h3, h4, h5⟩; exact ⟨j, e, h2, by omega, h3, h4, h5⟩

/-- `START`'s pin check, as 43_controller.md R203 words it. -/
theorem pinsAvailable_iff {s : State} {pb : Nat} :
    pinsAvailable s.params s.linesAvail pb = true ↔ s.linesUsable pb := by
  simp only [pinsAvailable, State.linesUsable, Bool.and_eq_true, decide_eq_true_eq]
  constructor
  · rintro ⟨⟨⟨⟨h, h0⟩, h1⟩, h2⟩, h3⟩
    refine ⟨h, fun k hk => ?_⟩
    obtain rfl | rfl | rfl | rfl : k = 0 ∨ k = 1 ∨ k = 2 ∨ k = 3 := by omega
    all_goals simpa
  · rintro ⟨h, hk⟩
    exact ⟨⟨⟨⟨h, hk 0 (by omega)⟩, hk 1 (by omega)⟩, hk 2 (by omega)⟩, hk 3 (by omega)⟩

/-- `calc_inc` answers the floor of 41_scheduler.md R150 exactly where no check fails. -/
theorem calcIncNat_eq_some {p : Params} {clk t inc : Nat} :
    calcIncNat p clk t = some inc ↔
      (clk ≠ 0 ∧ t ≠ 0) ∧ t * (p.overhead + p.loopCycles * p.minCount) ≤ clk * 2 ^ 31 ∧
        inc < (2 ^ 32 - 1) * 2 ^ 32 ∧
        inc = (clk * 2 ^ 63 - p.overhead * t * 2 ^ 32) / (p.loopCycles * t) := by
  unfold calcIncNat
  split
  · rename_i h; constructor
    · intro h'; cases h'
    · rintro ⟨⟨h1, h2⟩, -⟩; omega
  · rename_i h
    split
    · rename_i h2; constructor
      · intro h'; cases h'
      · rintro ⟨-, h3, -⟩; omega
    · rename_i h2
      split
      · rename_i h3; constructor
        · intro h'; cases h'
        · rintro ⟨-, -, h4, rfl⟩; omega
      · rename_i h3
        constructor
        · intro h'
          cases h'
          exact ⟨by omega, by omega, by omega, rfl⟩
        · rintro ⟨-, -, -, rfl⟩; rfl

/-- `calc_inc` answers a value below `2^64`, so storing it in `INC` loses nothing. -/
theorem calcInc_eq_some {p : Params} {clk : Word} {t inc : DWord} :
    calcInc p clk t = some inc ↔ calcIncNat p clk.toNat t.toNat = some inc.toNat := by
  unfold calcInc
  cases h : calcIncNat p clk.toNat t.toNat with
  | none => simp
  | some n =>
    have hn : n < (2 ^ 32 - 1) * 2 ^ 32 := (calcIncNat_eq_some.mp h).2.2.1
    simp only [Option.map_some, Option.some.injEq]
    constructor
    · rintro rfl; simp; omega
    · rintro rfl; simp

end Sys2Proof.Machine
end

