-- ==== Sys2Proof/Laws/Commands.lean ====
section
/-! SUPPORT. One specification lemma per command: what `exec` does with it, said once. -/

namespace Sys2Proof.Machine

theorem exec_nop (s : State) : exec .nop s = .next (s.onTarget Ddfs.succeed) := rfl

theorem exec_start (pinBase : BitVec 5) (pat : BitVec 4) (s : State) :
    exec (.start pinBase pat) s =
      .next (s.onTarget (Ddfs.startCommand s.params
        (pinsAvailable s.params s.linesAvail pinBase.toNat) (s.linesTaken pinBase.toNat)
        pinBase pat)) := rfl

theorem exec_setFreq (pr : Bool) (s : State) :
    exec (.setFreq pr) s = .next (s.onTarget (Ddfs.setFreqCommand s.params pr)) := rfl

theorem exec_stop (force : Bool) (s : State) :
    exec (.stop force) s = .next (s.onTarget (Ddfs.stopCommand force)) := rfl

theorem exec_clrUnderrun (s : State) :
    exec .clrUnderrun s = .next (s.onTarget Ddfs.clrUnderrunCommand) := rfl

/-- What a command does to the instance it is written to (43_controller.md R200). -/
inductive CommandEffect (s : State) : (Ddfs → Ddfs) → Prop where
  | nop : CommandEffect s Ddfs.succeed
  | start (pinBase : BitVec 5) (pat : BitVec 4) :
      CommandEffect s (Ddfs.startCommand s.params
        (pinsAvailable s.params s.linesAvail pinBase.toNat) (s.linesTaken pinBase.toNat)
        pinBase pat)
  | setFreq (pr : Bool) : CommandEffect s (Ddfs.setFreqCommand s.params pr)
  | stop (force : Bool) : CommandEffect s (Ddfs.stopCommand force)
  | clrUnderrun : CommandEffect s Ddfs.clrUnderrunCommand
  | illegal : CommandEffect s (Ddfs.fail .illegalCommand)

/-- Every command answers a next state that differs in the target instance only. -/
theorem exec_effect (i : Instr) (s : State) :
    ∃ f, CommandEffect s f ∧ exec i s = .next (s.onTarget f) := by
  cases i with
  | nop => exact ⟨_, .nop, rfl⟩
  | start pinBase pat => exact ⟨_, .start pinBase pat, rfl⟩
  | setFreq pr => exact ⟨_, .setFreq pr, rfl⟩
  | stop force => exact ⟨_, .stop force, rfl⟩
  | clrUnderrun => exact ⟨_, .clrUnderrun, rfl⟩

/-- Every word written to `CMD` answers a next state that differs in the target instance only. -/
theorem State.runCommand_effect (i : Nat) (w : Word) (s : State) :
    ∃ f, CommandEffect { s with cmdWindow := i } f ∧
      s.runCommand i w = .next (({ s with cmdWindow := i } : State).onTarget f) := by
  unfold State.runCommand
  cases decode w with
  | ok instr => exact exec_effect instr _
  | error r => exact ⟨_, .illegal, rfl⟩

/-- The four outcomes of `START`'s first checks, in the order of 60_exceptions.md R262. -/
theorem startFailure_eq_none {st : RunState} {pinsOk taken : Bool} :
    startFailure st pinsOk taken = none ↔ st = .stopped ∧ pinsOk = true ∧ taken = false := by
  cases st <;> cases pinsOk <;> cases taken <;> simp [startFailure]

/-- Everything `START` can do to an instance: fail and write `RESULT` alone, or start a run from Stopped
with usable, free lines and a valid increment (43_controller.md R203, R204). -/
theorem Ddfs.startCommand_cases (p : Params) (pinsOk taken : Bool) (pinBase : BitVec 5)
    (pat : BitVec 4) (d : Ddfs) :
    (∃ code, d.startCommand p pinsOk taken pinBase pat = d.fail code ∧
      (startFailure d.state pinsOk taken = some code ∨
        startFailure d.state pinsOk taken = none ∧ calcInc p d.clkHz d.target = none ∧
          code = .configError)) ∨
    (∃ inc, d.state = .stopped ∧ pinsOk = true ∧ taken = false ∧
      calcInc p d.clkHz d.target = some inc ∧
      d.startCommand p pinsOk taken pinBase pat = d.startRun pinBase pat inc) := by
  unfold Ddfs.startCommand
  cases hf : startFailure d.state pinsOk taken with
  | some code => exact .inl ⟨code, rfl, .inl rfl⟩
  | none =>
    obtain ⟨h1, h2, h3⟩ := startFailure_eq_none.mp hf
    cases hc : calcInc p d.clkHz d.target with
    | none => exact .inl ⟨_, rfl, .inr ⟨rfl, rfl, rfl⟩⟩
    | some inc => exact .inr ⟨inc, h1, h2, h3, rfl, rfl⟩

theorem Ddfs.active_iff {d : Ddfs} :
    d.active = true ↔ d.state = .initializing ∨ d.state = .running := by
  simp [Ddfs.active]

/-- Everything `SET_FREQ` can do to an instance (43_controller.md R206). -/
theorem Ddfs.setFreqCommand_cases (p : Params) (pr : Bool) (d : Ddfs) :
    ((d.active = false ∨ calcInc p d.clkAct d.target = none) ∧
      d.setFreqCommand p pr = d.fail .configError) ∨
    (∃ inc, d.active = true ∧ calcInc p d.clkAct d.target = some inc ∧
      d.setFreqCommand p pr =
        { d with inc := inc, acc := if pr then 0#32 else d.acc, result := .ok }) := by
  unfold Ddfs.setFreqCommand
  cases ha : d.active with
  | false => exact .inl ⟨.inl rfl, by simp⟩
  | true =>
    cases hc : calcInc p d.clkAct d.target with
    | none => exact .inl ⟨.inr rfl, by simp⟩
    | some inc => exact .inr ⟨inc, rfl, rfl, by simp [Ddfs.succeed, Ddfs.withResult]⟩

/-- Everything `STOP` can do to an instance (43_controller.md R208 to R210). -/
theorem Ddfs.stopCommand_cases (force : Bool) (d : Ddfs) :
    ((d.state = .stopped ∨ d.state = .fatal) ∧ d.stopCommand force = d.succeed) ∨
    ((d.state = .initializing ∨ d.state = .running ∧ force = true) ∧
      d.stopCommand force = d.teardown.succeed) ∨
    (d.state = .running ∧ force = false ∧
      d.stopCommand force = { d with stopPending := true, result := .ok }) := by
  unfold Ddfs.stopCommand
  cases hs : d.state <;> cases force <;> simp [Ddfs.succeed, Ddfs.withResult]

end Sys2Proof.Machine
end

