-- ==== Sys2Proof/Laws/Encoding.lean ====
section
/-! SUPPORT. Facts of the encoder and the operand ranges. -/

namespace Sys2Proof

/-- The operand types admit exactly the numbers of 30_encoding.md R102. -/
theorem Instr.wellFormed_all (i : Instr) : i.wellFormed = true := by
  cases i with
  | nop => rfl
  | start pinBase pat =>
    have h1 := pinBase.isLt
    have h2 := pat.isLt
    simp [Instr.wellFormed, Instr.operandsInRange, h1, h2]
  | setFreq pr => cases pr <;> rfl
  | stop force => cases force <;> rfl
  | clrUnderrun => rfl

theorem Instr.row_mem (i : Instr) : i.row ∈ opcodeTable := by
  cases i <;> simp [Instr.row, opcodeTable]

/-- The bytes of a word, put together again, are the word (20_memory.md R67). -/
theorem decodeBytes_toBytes (w : Word) : decodeBytes (Word.toBytes w) = decode w := by
  have h : (Word.byteAt 3 w ++ Word.byteAt 2 w ++ Word.byteAt 1 w ++ Word.byteAt 0 w : BitVec 32) = w := by
    apply BitVec.eq_of_getLsbD_eq
    intro i hi
    simp only [Word.byteAt, BitVec.getLsbD_append, BitVec.getLsbD_extractLsb']
    split <;> rename_i h0
    · simp [h0]
    · split <;> rename_i h1
      · simp [h1]; congr 1; omega
      · split <;> rename_i h2
        · simp [h2]; congr 1; omega
        · have h3 : i - 8 - 8 - 8 < 8 := by omega
          simp [h3]; congr 1; omega
  simp only [Word.toBytes, decodeBytes]
  exact congrArg decode h

end Sys2Proof
end

