-- ==== Sys2Proof/Laws/PerInstr.lean ====
section
/-! SUPPORT. The per-instruction family FixedBits: the fixed bits of the opcode table stand in every
word of an instruction (spec/30_encoding.md R92 to R96), whatever its operands. -/

namespace Sys2Proof.Laws.FixedBits

def Statement (i : Instr) : Prop := encode i &&& i.row.mask = i.row.pattern

theorem nop : Statement .nop := rfl

theorem start (pinBase : BitVec 5) (pat : BitVec 4) : Statement (.start pinBase pat) := by
  revert pinBase pat
  simp only [Statement, encode, Instr.row]
  decide +kernel

theorem setFreq (pr : Bool) : Statement (.setFreq pr) := by cases pr <;> rfl

theorem stop (force : Bool) : Statement (.stop force) := by cases force <;> rfl

theorem clrUnderrun : Statement .clrUnderrun := rfl

end Sys2Proof.Laws.FixedBits
end

