-- ==== Sys2Proof/Laws/Units.lean ====
section
/-! SUPPORT. One specification lemma per phase of the engine and for the unit phase, the line-loss phase
and the promotion: what each can do, said once. -/

namespace Sys2Proof.Machine

/-- Everything `LOAD` can do (40_engine.md R121). -/
theorem Ddfs.loadPhase_cases (d : Ddfs) :
    (d.stopPending = true ∧ d.loadPhase = { d with stalled := false, ePhase := .drive }) ∨
    (∃ c rest, d.stopPending = false ∧ d.q = c :: rest ∧
      d.loadPhase = { d with x := c, q := rest, stalled := false, ePhase := .drive }) ∨
    (d.stopPending = false ∧ d.q = [] ∧ d.loadPhase = d.stall) := by
  unfold Ddfs.loadPhase
  cases d.stopPending with
  | true => simp
  | false => cases hq : d.q <;> simp

/-- Everything the underrun branch can do (40_engine.md R121, 60_exceptions.md R264). -/
theorem Ddfs.stall_cases (d : Ddfs) :
    (d.stalled = true ∧ d.stall = d) ∨
    (d.stalled = false ∧
      d.stall = { d with underrunCnt := satIncrement d.underrunCnt, stalled := true }) := by
  unfold Ddfs.stall
  cases d.stalled <;> simp

/-- Everything the end of the delay can do (40_engine.md R122, R123). -/
theorem Ddfs.enterSlack_cases (p : Params) (d : Ddfs) :
    (0 < p.slackCycles ∧
      d.enterSlack p = { d with scnt := BitVec.ofNat 8 p.slackCycles, ePhase := .slack }) ∨
    (p.slackCycles = 0 ∧ d.enterSlack p = { d with ePhase := .load }) := by
  unfold Ddfs.enterSlack
  split
  · exact .inl ⟨‹_›, rfl⟩
  · exact .inr ⟨by omega, rfl⟩

/-- Everything a driving `DRIVE` can do (40_engine.md R122): the edge, then the phase by the length of
the delay and of the slack. -/
theorem Ddfs.driveEdge_cases (p : Params) (d : Ddfs) :
    (0 < d.delayCycles p ∧
      d.driveEdge p = { d with out := d.pattern, ph := !d.ph, dcnt := BitVec.ofNat 40 (d.delayCycles p),
                               ePhase := .delay }) ∨
    (d.delayCycles p = 0 ∧ 0 < p.slackCycles ∧
      d.driveEdge p = { d with out := d.pattern, ph := !d.ph, dcnt := 0#40,
                               scnt := BitVec.ofNat 8 p.slackCycles, ePhase := .slack }) ∨
    (d.delayCycles p = 0 ∧ p.slackCycles = 0 ∧
      d.driveEdge p = { d with out := d.pattern, ph := !d.ph, dcnt := 0#40, ePhase := .load }) := by
  unfold Ddfs.driveEdge Ddfs.enterSlack
  by_cases h : 0 < d.delayCycles p
  · exact .inl ⟨h, by simp [h]⟩
  · have h0 : d.delayCycles p = 0 := by omega
    by_cases hs : 0 < p.slackCycles
    · exact .inr (.inl ⟨h0, hs, by simp [h0, hs]⟩)
    · exact .inr (.inr ⟨h0, by omega, by simp [h0, hs]⟩)

/-- The engine's rule is the rule of its phase (40_engine.md R125). -/
theorem Ddfs.engineRule_of_phase (p : Params) (d : Ddfs) :
    (d.ePhase = .idle → d.engineRule p = d) ∧
    (d.ePhase = .load → d.engineRule p = d.loadPhase) ∧
    (d.ePhase = .drive → d.engineRule p = d.drivePhase p) ∧
    (d.ePhase = .delay → d.engineRule p = d.delayPhase p) ∧
    (d.ePhase = .slack → d.engineRule p = d.slackPhase) := by
  refine ⟨?_, ?_, ?_, ?_, ?_⟩ <;> intro h <;> simp [Ddfs.engineRule, h, Ddfs.idlePhase]

/-- No rule of the engine writes a register of the host, of the controller's configuration or of the
scheduler (40_engine.md R125). -/
theorem Ddfs.engineRule_frame (p : Params) (d : Ddfs) :
    (d.engineRule p).clkHz = d.clkHz ∧ (d.engineRule p).targetLo = d.targetLo ∧
    (d.engineRule p).targetHi = d.targetHi ∧ (d.engineRule p).inc = d.inc ∧
    (d.engineRule p).acc = d.acc ∧ (d.engineRule p).clkAct = d.clkAct ∧
    (d.engineRule p).result = d.result ∧ (d.engineRule p).pinBase = d.pinBase ∧
    (d.engineRule p).patA = d.patA := by
  unfold Ddfs.engineRule
  split
  · simp [Ddfs.idlePhase]
  · obtain ⟨-, h⟩ | ⟨c, rest, -, -, h⟩ | ⟨-, -, h⟩ := d.loadPhase_cases
    · rw [h]; simp
    · rw [h]; simp
    · obtain ⟨-, h'⟩ | ⟨-, h'⟩ := d.stall_cases <;> rw [h, h'] <;> simp
  · unfold Ddfs.drivePhase
    split
    · simp
    · obtain ⟨-, h⟩ | ⟨-, -, h⟩ | ⟨-, -, h⟩ := d.driveEdge_cases p <;> rw [h] <;> simp
  · unfold Ddfs.delayPhase
    split
    · obtain ⟨-, h⟩ | ⟨-, h⟩ := d.enterSlack_cases p <;> rw [h] <;> simp
    · simp
  · simp [Ddfs.slackPhase]

/-- The channel after the engine's rule, where it does not tear down: `LOAD` pops, no other phase does
(40_engine.md R121 to R124). -/
theorem Ddfs.engineRule_q (p : Params) {d : Ddfs} (h : ¬(d.ePhase = .drive ∧ d.stopPending = true)) :
    (d.engineRule p).q =
      if d.ePhase = .load ∧ d.stopPending = false then d.q.drop 1 else d.q := by
  unfold Ddfs.engineRule
  split <;> rename_i hp
  · simp [Ddfs.idlePhase, hp]
  · obtain ⟨h1, h2⟩ | ⟨c, rest, h1, h2, h3⟩ | ⟨h1, h2, h3⟩ := d.loadPhase_cases
    · rw [h2]; simp [h1]
    · rw [h3]; simp [h1, hp, h2]
    · rw [h3]; obtain ⟨-, h'⟩ | ⟨-, h'⟩ := d.stall_cases <;> rw [h'] <;> simp [h2]
  · have hs : d.stopPending = false := by simpa [hp] using h
    simp only [Ddfs.drivePhase, hs, hp]
    obtain ⟨-, h⟩ | ⟨-, -, h⟩ | ⟨-, -, h⟩ := d.driveEdge_cases p <;> simp [h]
  · unfold Ddfs.delayPhase
    split
    · obtain ⟨-, h⟩ | ⟨-, h⟩ := d.enterSlack_cases p <;> rw [h] <;> simp [hp]
    · simp [hp]
  · simp [Ddfs.slackPhase, hp]

theorem Ddfs.engineTearsDown_iff {d : Ddfs} :
    d.engineTearsDown = true ↔ d.ePhase = .drive ∧ d.stopPending = true := by
  simp [Ddfs.engineTearsDown]

theorem Ddfs.schedSteps_iff {p : Params} {ready : Bool} {d : Ddfs} :
    d.schedSteps p ready = true ↔
      (d.state = .initializing ∨ d.state = .running) ∧ ready = true ∧ d.q.length < p.fifoDepth := by
  simp [Ddfs.schedSteps, Ddfs.active_iff, and_assoc]

/-- Everything the unit phase can do (44_cycle.md R243): the teardown alone; the engine's rule and a
push; the engine's rule alone. -/
theorem Ddfs.unitPhase_cases (p : Params) (ready : Bool) (d : Ddfs) :
    (d.engineTearsDown = true ∧ d.unitPhase p ready = d.teardown) ∨
    (d.engineTearsDown = false ∧ d.schedSteps p ready = true ∧
      d.unitPhase p ready =
        { d.engineRule p with acc := d.nextAcc, q := (d.engineRule p).q ++ [d.nextCount p] }) ∨
    (d.engineTearsDown = false ∧ d.schedSteps p ready = false ∧
      d.unitPhase p ready = d.engineRule p) := by
  unfold Ddfs.unitPhase
  cases ht : d.engineTearsDown with
  | true =>
    obtain ⟨h1, h2⟩ := Ddfs.engineTearsDown_iff.mp ht
    exact .inl ⟨rfl, by simp [Ddfs.engineRule, h1, Ddfs.drivePhase, h2]⟩
  | false => cases hs : d.schedSteps p ready <;> simp

/-- Everything the promotion can do (44_cycle.md R244). -/
theorem Ddfs.promote_cases (p : Params) (d : Ddfs) :
    (d.state = .initializing ∧ d.q.length = p.fifoDepth ∧
      d.promote p = { d with state := .running, ePhase := .load }) ∨
    (¬(d.state = .initializing ∧ d.q.length = p.fifoDepth) ∧ d.promote p = d) := by
  unfold Ddfs.promote
  split
  · exact .inl ⟨‹_ ∧ _›.1, ‹_ ∧ _›.2, rfl⟩
  · exact .inr ⟨‹_›, rfl⟩

/-- Everything the line-loss phase can do (44_cycle.md R242). -/
theorem Ddfs.lineLossPhase_cases (lost : Bool) (d : Ddfs) :
    (lost = true ∧ d.own = true ∧ d.lineLossPhase lost = d.loseLines) ∨
    ((lost = false ∨ d.own = false) ∧ d.lineLossPhase lost = d) := by
  unfold Ddfs.lineLossPhase
  cases lost <;> cases d.own <;> simp

end Sys2Proof.Machine
end

