-- ==== Sys2Proof/Laws/Step.lean ====
section
/-! SUPPORT. What the host phase and the step can do, said once. -/

namespace Sys2Proof.Machine

/-- What the host phase can do to the instance it reaches: nothing, a register write, or a command. -/
inductive HostEffect (s : State) (i : Nat) : (Ddfs → Ddfs) → Prop where
  | nothing : HostEffect s i id
  | write (off : Nat) (v : Word) : HostEffect s i (Ddfs.writeReg off v)
  | command {f : Ddfs → Ddfs} (h : CommandEffect { s with cmdWindow := i } f) : HostEffect s i f

/-- Everything a host write can do (20_memory.md R65, R66). -/
theorem State.hostWrite_effect (i off width : Nat) (v : Word) (s : State) :
    ∃ f u, HostEffect s i f ∧ s.hostWrite i off width v = .next u ∧
      u.insts = s.insts.modify i f ∧ u.params = s.params ∧ u.inputs = s.inputs ∧
      u.cycle = s.cycle ∧ u.linesAvail = s.linesAvail ∧ u.readData = s.readData := by
  unfold State.hostWrite
  split
  · split
    · obtain ⟨f, hf, h⟩ := s.runCommand_effect i v
      exact ⟨f, _, .command hf, h, rfl, rfl, rfl, rfl, rfl, rfl⟩
    · exact ⟨_, _, .write off v, rfl, rfl, rfl, rfl, rfl, rfl, rfl⟩
  · exact ⟨id, s, .nothing, rfl, by simp, rfl, rfl, rfl, rfl, rfl⟩

/-- Everything one access can do (44_cycle.md R241). -/
theorem State.hostAccess_effect (i off : Nat) (a : HostAccess) (s : State) :
    ∃ f u, HostEffect s i f ∧ s.hostAccess i off a = .next u ∧
      u.insts = s.insts.modify i f ∧ u.params = s.params ∧ u.inputs = s.inputs ∧
      u.cycle = s.cycle ∧ u.linesAvail = s.linesAvail := by
  unfold State.hostAccess
  cases a.kind with
  | read => exact ⟨id, _, .nothing, rfl, by simp, rfl, rfl, rfl, rfl⟩
  | write v =>
    obtain ⟨f, u, h1, h2, h3, h4, h5, h6, h7, -⟩ := s.hostWrite_effect i off a.width v
    exact ⟨f, u, h1, h2, h3, h4, h5, h6, h7⟩

/-- Everything the host phase can do where it answers a next state (44_cycle.md R241): it reaches one
instance, the one of its access, and nothing where there is no access. -/
theorem State.hostPhase_effect {accs : List (Nat × Nat × HostAccess)} {s u : State}
    (h : s.hostPhase accs = .next u) :
    ∃ i f, HostEffect s i f ∧ (∀ x ∈ accs, x.1 = i) ∧ (accs = [] → u = s ∧ f = id) ∧
      u.insts = s.insts.modify i f ∧ u.params = s.params ∧ u.inputs = s.inputs ∧
      u.cycle = s.cycle ∧ u.linesAvail = s.linesAvail := by
  match accs, h with
  | [], h =>
    simp only [State.hostPhase, Host.Outcome.next.injEq] at h
    subst h
    exact ⟨0, id, .nothing, by simp, by simp, by simp, rfl, rfl, rfl, rfl⟩
  | [(i, off, a)], h =>
    obtain ⟨f, v, h1, h2, h3, h4, h5, h6, h7⟩ := s.hostAccess_effect i off a
    have : v = u := by
      have h' : s.hostAccess i off a = .next u := h
      rw [h2] at h'; exact Host.Outcome.next.inj h'
    subst this
    exact ⟨i, f, h1, by simp, by simp, h3, h4, h5, h6, h7⟩
  | _ :: _ :: _, h => simp [State.hostPhase] at h

/-- The host phase refuses two or more accesses and completes otherwise (70_reset_and_hazards.md R293). -/
theorem State.hostPhase_completes {accs : List (Nat × Nat × HostAccess)} {s : State} :
    accs.length ≤ 1 ↔ ∃ u, s.hostPhase accs = .next u := by
  match accs with
  | [] => simp [State.hostPhase]
  | [(i, off, a)] =>
    obtain ⟨f, v, -, h2, -⟩ := s.hostAccess_effect i off a
    simp [State.hostPhase, h2]
  | _ :: _ :: _ => simp [State.hostPhase]

/-- Everything a step can do where it answers a next state (44_cycle.md R240): the reset cycle, or the
host phase and then the phases of every instance. -/
theorem step_eq_next {s t : State} :
    step s = .next t ↔ s.isBlock = true ∧
      (s.currentInputs.rst = true ∧ t = (s.sample s.currentInputs).resetCycle ∨
       s.currentInputs.rst = false ∧ ∃ u,
        (s.sample s.currentInputs).hostPhase (selectedAccesses s.params s.currentInputs.accesses)
          = .next u ∧ t = u.unitsPhase s.currentInputs) := by
  unfold step State.clock State.cycleWith
  cases s.isBlock with
  | false => simp
  | true =>
    cases s.currentInputs.rst with
    | true => simp [eq_comm]
    | false => simp [thenNext_eq_next]

/-- No step faults: the block has no traps and no halt (60_exceptions.md R260, 44_cycle.md R247). -/
theorem step_never_faults (s : State) (r : Fault) : step s ≠ .fault r := nomatch r

end Sys2Proof.Machine
end

