-- ==== Sys2Proof/Machine/Pseudo.lean ====
section
/-! DEFINITION. The host's pseudo-instructions, each expanded into accesses, one access a cycle:
spec/30_encoding.md R103 (and the boot sequence of spec/70_reset_and_hazards.md R292). The polling loops
`wait_running` and the end of `stop` repeat `readStatus` until the host sees the value named here. -/

namespace Sys2Proof.Machine

/-- `WR reg, v` of window `i` (00_scope.md R15). -/
def writeAccess (i off : Nat) (v : Word) : HostAccess :=
  { address := .window i off, width := 4, kind := .write v }

/-- `RD reg` of window `i` (00_scope.md R15). -/
def readAccess (i off : Nat) : HostAccess := { address := .window i off, width := 4, kind := .read }

/-- `CMD ...` on window `i` (00_scope.md R15). -/
def commandAccess (i : Nat) (instr : Instr) : HostAccess := writeAccess i 0x00 (encode instr)

/-- `RD STATUS`. -/
def readStatus (i : Nat) : HostAccess := readAccess i 0x04

/-- The two writes that stage a target (70_reset_and_hazards.md R296). -/
def stageTarget (i : Nat) (f : DWord) : List HostAccess :=
  [writeAccess i 0x0C (f.extractLsb' 0 32), writeAccess i 0x10 (f.extractLsb' 32 32)]

/-- `start(pin_base, clk_hz, f, pat)` (R103). -/
def startAccesses (i : Nat) (pinBase : BitVec 5) (clkHz : Word) (f : DWord) (pat : BitVec 4) :
    List HostAccess :=
  [writeAccess i 0x08 clkHz] ++ stageTarget i f ++ [commandAccess i (.start pinBase pat), readStatus i]

/-- `set_frequency(f)` (`pr = false`) and `set_frequency_phase_reset(f)` (`pr = true`) (R103). -/
def setFrequencyAccesses (i : Nat) (f : DWord) (pr : Bool) : List HostAccess :=
  stageTarget i f ++ [commandAccess i (.setFreq pr), readStatus i]

/-- `stop()` up to its first poll, and `stop_force()` (R103). -/
def stopAccesses (i : Nat) (force : Bool) : List HostAccess :=
  if force then [commandAccess i (.stop true)] else [commandAccess i (.stop false), readStatus i]

/-- What ends the polling of `wait_running()`: `STATUS.STATE` = 2 (R103). -/
def statusSaysRunning (status : Word) : Bool := status.extractLsb' 0 2 == 2#2

/-- What ends the polling of `stop()`: `STATUS.STATE` = 0 (R103). -/
def statusSaysStopped (status : Word) : Bool := status.extractLsb' 0 2 == 0#2

/-- One access a cycle (70_reset_and_hazards.md R293): the accesses as the inputs of consecutive cycles
with the same draws. -/
def scriptOf (draws : CycleInputs) (accesses : List HostAccess) : List CycleInputs :=
  accesses.map fun a => { draws with rst := false, accesses := [a] }

end Sys2Proof.Machine
end

