-- ==== Sys2Proof/Tests/Slice0.lean ====
section
/-! SUPPORT. Tests of the model, and for every statement with hypotheses a concrete case that meets
them. Expected values come from spec/30_encoding.md R104, spec/44_cycle.md R249 and the vectors of
spec/95_test_vectors.md, named in each comment. -/

namespace Sys2Proof.Tests

-- one thread is enough for these small evaluations
set_option Elab.async false

open Sys2Proof.Machine

-- ---------------------------------------------------------------- decoding (30_encoding.md R104)

theorem test_decode_nop : decode 0b0#32 = .ok .nop := by decide

/-- R93: OPC 0001, PIN_BASE 11100 in 8:4, PAT 0101 in 15:12 -/
theorem test_decode_start :
    decode 0b00000000000000000101000111000001#32 = .ok (.start 28#5 5#4) := by decide

/-- R94: OPC 0010, PR in bit 4 -/
theorem test_decode_set_freq :
    decode 0b00000000000000000000000000000010#32 = .ok (.setFreq false) ∧
    decode 0b00000000000000000000000000010010#32 = .ok (.setFreq true) := by decide

/-- R95: OPC 0011, FORCE in bit 4 -/
theorem test_decode_stop :
    decode 0b00000000000000000000000000000011#32 = .ok (.stop false) ∧
    decode 0b00000000000000000000000000010011#32 = .ok (.stop true) := by decide

theorem test_decode_clr_underrun :
    decode 0b00000000000000000000000000000100#32 = .ok .clrUnderrun := by decide

/-- vectors 2.1: bits 9, 16, 5, 31, 4 and the reserved opcodes -/
theorem test_decode_illegal :
    decode 0x0000F201#32 = .error .reservedBits ∧ decode 0x0001F001#32 = .error .reservedBits ∧
    decode 0x00000022#32 = .error .reservedBits ∧ decode 0x80000003#32 = .error .reservedBits ∧
    decode 0x00000010#32 = .error .reservedBits ∧ decode 0x0000000F#32 = .error .reservedOpcode ∧
    decodeBytes [0x04#8] = .error .wrongLength := by decide

/-- R67: 0x000051C1 as bytes, the lowest address first -/
theorem test_decode_bytes :
    decodeBytes [0xC1#8, 0x51#8, 0x00#8, 0x00#8] = .ok (.start 28#5 5#4) ∧
    decodeTableWord 32 0x000051C1 = some (.start 28#5 5#4) ∧ decodeTableWord 32 5 = none := by
  decide

-- ---------------------------------------------------------------- well-formedness

/-- each range of 00_scope.md R8, at both ends where it has two (93 I23) -/
theorem test_legal_refuses :
    Params.legal { Params.default with nInst := 0 } = false ∧
    Params.legal { Params.default with nInst := 17 } = false ∧
    Params.legal { Params.default with nLines := 3 } = false ∧
    Params.legal { Params.default with nLines := 33 } = false ∧
    Params.legal { Params.default with fifoDepth := 0 } = false ∧
    Params.legal { Params.default with fifoDepth := 256 } = false ∧
    Params.legal { Params.default with loopCycles := 0 } = false ∧
    Params.legal { Params.default with loopCycles := 256 } = false ∧
    Params.legal { Params.default with slackCycles := 254 } = false ∧
    Params.legal { Params.default with minCount := 2 ^ 32 - 1 } = false := by decide

theorem test_legal_accepts :
    Params.default.legal = true ∧
    Params.legal { nInst := 16, nLines := 4, fifoDepth := 255, loopCycles := 255, slackCycles := 253,
                   minCount := 2 ^ 32 - 2 } = true := by decide

/-- R102: `pin_base` 0..31, `pat` 0..15 -/
theorem test_operands_refused :
    Instr.startOfNumbers 32 0 = none ∧ Instr.startOfNumbers 0 16 = none ∧
    Instr.startOfNumbers 31 15 = some (.start 31#5 15#4) := by decide

-- ---------------------------------------------------------------- states of the tests

/-- all lines available, scheduler ready, no line lost, as 95_test_vectors.md has them -/
def quiet : CycleInputs :=
  { rst := false, accesses := [], linesAvail := 0xFFFFFFFF#32, schedReady := 0xFFFF#16,
    linesLost := 0#16 }

/-- a block of one instance with the default parameters and the inputs of one cycle to come -/
def block (d : Ddfs) (c : CycleInputs := quiet) : State :=
  { State.reset with insts := [d], inputs := [c], linesAvail := c.linesAvail }

/-- the cycle in which the host writes `w` to `CMD` -/
def commandCycle (w : Word) : CycleInputs := { quiet with accesses := [writeAccess 0 0x00 w] }

/-- what one step makes of the instance -/
def after (d : Ddfs) (c : CycleInputs) : Option Ddfs :=
  match step (block d c) with
  | .next t => t.insts.head?
  | _ => none

/-- Stopped with `CLK_HZ` = 1000 and the target 100 Hz (P1 before its cycle 2) -/
def staged : Ddfs := { Ddfs.reset with clkHz := 1000#32, targetHi := 100#32 }

/-- P2a at the start of cycle 21: Running at `DRIVE`, target 80 Hz staged (44_cycle.md R249) -/
def p2cycle21 : Ddfs :=
  { staged with
    targetHi := 80#32, clkAct := 1000#32, inc := 0x80000000#64, acc := 0x80000000#32, x := 1#32,
    state := .running, q := [0#32, 1#32, 0#32], ph := true, own := true, out := 0xF#4,
    ePhase := .drive, patA := 0xF#4 }

def initializing : Ddfs :=
  { staged with
    clkAct := 1000#32, inc := 0x80000000#64, state := .initializing, own := true, patA := 0xF#4 }

def fatal : Ddfs := { staged with state := .fatal }

/-- Running at `LOAD` with an empty channel (V-F1) -/
def starved : Ddfs := { p2cycle21 with q := [], ePhase := .load, underrunCnt := 5#32 }

-- ---------------------------------------------------------------- one step each

/-- P1, cycle 2 and the read of cycle 3: `STATUS` = 0x00020101 -/
theorem test_start_p1 :
    (after staged (commandCycle 0x0000F001#32)).map Ddfs.statusWord = some 0x00020101#32 := by
  decide

/-- V-SF9: line 3 unavailable -/
theorem test_start_line_unavailable :
    after staged { commandCycle 0x0000F001#32 with linesAvail := 0xFFFFFFF7#32 } =
      some { staged with result := .configError } := by decide

/-- R249: `INC`, `OUT`, `DCNT`, `ACC` and the channel after cycle 21 of P2a -/
theorem test_set_freq_p2a :
    after p2cycle21 (commandCycle 0x00000002#32) =
      some { p2cycle21 with
             inc := 0x0000000120000000#64, acc := 0xA0000000#32, q := [0#32, 1#32, 0#32, 1#32],
             out := 0x0#4, ph := false, dcnt := 2#40, ePhase := .delay } := by decide

/-- P2b: `ACC` is cleared before the scheduler step of the same cycle -/
theorem test_set_freq_pr_p2b :
    (after p2cycle21 (commandCycle 0x00000012#32)).map Ddfs.acc = some 0x20000000#32 := by
  decide

/-- table of 2.6, `STOP` in a `DRIVE` cycle: the edge is not driven, `STATUS` = 0 -/
theorem test_stop_in_drive :
    (after p2cycle21 (commandCycle 0x00000003#32)).map Ddfs.statusWord = some 0#32 := by
  decide

/-- V-F7: forced stop and line loss in one cycle give Stopped -/
theorem test_stop_force_with_line_loss :
    (after p2cycle21 { commandCycle 0x00000013#32 with linesLost := 1#16 }).map Ddfs.state =
      some .stopped := by decide

/-- R202: `NOP` clears a stale error -/
theorem test_nop_clears_result :
    after { staged with result := .configError } (commandCycle 0#32) = some staged := by
  decide

/-- V-F8: `CLR_UNDERRUN` with the first stall cycle of an episode -/
theorem test_clr_underrun_with_stall :
    (after starved (commandCycle 0x00000004#32)).map Ddfs.underrunCnt = some 1#32 := by
  decide

/-- V-SF15 -/
theorem test_illegal_word :
    (after staged (commandCycle 0x00000005#32)) = some { staged with result := .illegalCommand } := by
  decide

/-- V-F5: loss of the lines -/
theorem test_line_loss :
    (after p2cycle21 { quiet with linesLost := 1#16 }).map Ddfs.statusWord = some 3#32 := by
  decide

/-- V-M1, V-M4: `CONFIG` and `LINES` after reset -/
theorem test_constant_registers :
    State.reset.hostRead 0 0x24 4 = 0x00020204#32 ∧ State.reset.hostRead 0 0x2C 4 = 0x001F0000#32 ∧
    State.reset.hostRead 0 0x06 4 = 0#32 ∧ State.reset.hostRead 0 0x08 2 = 0#32 := by decide

/-- V-I1, V-I3, V-I6, V-I9, V-I10, V-I17 -/
theorem test_calc_inc :
    calcInc Params.default 1000#32 0x6400000000#64 = some 0x80000000#64 ∧
    calcInc Params.default 1000#32 0x6480000000#64 = some 0x7CD0E028#64 ∧
    calcInc Params.default 1000#32 0x7D00000001#64 = none ∧
    calcInc Params.default 1000#32 0xFA#64 = some 0xFFFFFFFE00000000#64 ∧
    calcInc Params.default 1000#32 0xF9#64 = none ∧
    calcInc Params.default 0xFFFFFFFF#32 0x100000000#64 = some 0x3FFFFFFDC0000000#64 := by
  decide

/-- V-S7, the largest sum -/
theorem test_sched_step_largest :
    let d := { Ddfs.reset with acc := 0xFFFFFFFF#32, inc := 0xFFFFFFFEFFFFFFFF#64 }
    d.nextCount Params.default = 0xFFFFFFFF#32 ∧ d.nextAcc = 0xFFFFFFFE#32 := by decide

/-- P7, observation of cycle 9: instance 0 drives lines 0 to 3 high, instance 1 drives 0, 1, 0, 1 -/
theorem test_observe_p7 :
    ({ State.reset with
       insts := [{ Ddfs.reset with own := true, out := 0xF#4 },
                 { Ddfs.reset with own := true, out := 0xA#4, pinBase := 4#5 }] } : State).observe.take 9 =
      [.high, .high, .high, .high, .low, .high, .low, .high, .notDriven] := by decide

/-- the word placed for the next step is the one it runs: `START` with `CLK_HZ` = 0 gives CONFIG_ERROR
(P4, cycle 0) -/
theorem test_with_fetch_word :
    (match step (State.reset.withFetchWord 32 0x0000F001) with
     | .next t => t.insts.map Ddfs.result
     | _ => []) = [.configError] := by decide

-- ---------------------------------------------------------------- hypotheses that are met
-- One theorem for each statement with hypotheses, named after it: concrete states and operands that
-- meet them, at the ends of the ranges.

/-- a block of two instances -/
def pair (d e : Ddfs) (c : CycleInputs := quiet) : State :=
  { block d c with params := { Params.default with nInst := 2 }, insts := [d, e] }

/-- Running at `LOAD` with a full channel -/
def loading : Ddfs := { p2cycle21 with q := [0#32, 1#32, 0#32, 1#32], ePhase := .load, x := 0#32 }

/-- Running in `DELAY` and in `SLACK`, their counters at their largest -/
def delaying : Ddfs := { p2cycle21 with ePhase := .delay, dcnt := 2#40 }
def slacking : Ddfs := { p2cycle21 with ePhase := .slack, scnt := 2#8 }

/-- the default parameters without a slack phase -/
def noSlack : Params := { Params.default with slackCycles := 0 }

/-- the largest increment `calc_inc` admits (41_scheduler.md R151) -/
def largestInc : DWord := 0xFFFFFFFEFFFFFFFF#64

theorem met_NopWritesOnlyResult : (block staged).targets staged := rfl

theorem met_StartBeginsARun :
    (block staged).targets staged ∧ staged.state = .stopped ∧ (block staged).linesUsable 28 ∧
    ¬ (block staged).otherOwns 28 ∧
    calcInc (block staged).params staged.clkHz (staged.targetHi ++ staged.targetLo) =
      some 0x80000000#64 :=
  ⟨rfl, rfl, ⟨by decide, by decide⟩, by rw [← State.linesTaken_iff]; decide, by decide⟩

/-- its five clauses in order; pin base 29 is the first that does not exist, and lines 3 and 4 are the
only ones the pin bases 1 and 4 share -/
theorem met_FailedStartReportsTheFirstCause :
    ((block fatal).targets fatal ∧ fatal.state = .fatal) ∧
    ((block initializing).targets initializing ∧ initializing.state = .initializing) ∧
    ((block staged).targets staged ∧ staged.state = .stopped ∧ ¬ (block staged).linesUsable 29) ∧
    (let s := pair staged { p2cycle21 with pinBase := 4#5 }
     s.targets staged ∧ staged.state = .stopped ∧ s.linesUsable 1 ∧ s.otherOwns 1 ∧
       ¬ s.otherOwns 0) ∧
    ((block Ddfs.reset).targets Ddfs.reset ∧ (block Ddfs.reset).linesUsable 0 ∧
      ¬ (block Ddfs.reset).otherOwns 0 ∧ calcInc Params.default 0#32 0#64 = none) :=
  ⟨⟨rfl, rfl⟩, ⟨rfl, rfl⟩, ⟨rfl, rfl, fun h => absurd h.1 (by decide)⟩,
    ⟨rfl, rfl, ⟨by decide, by decide⟩, by rw [← State.linesTaken_iff]; decide,
      by rw [← State.linesTaken_iff]; decide⟩,
    ⟨rfl, ⟨by decide, by decide⟩, by rw [← State.linesTaken_iff]; decide, by decide⟩⟩

theorem met_SetFreqWritesTheIncrement :
    (block p2cycle21).targets p2cycle21 ∧ p2cycle21.state = .running ∧
    (block initializing).targets initializing ∧ initializing.state = .initializing ∧
    calcInc Params.default 1000#32 (80#32 ++ 0#32) = some 0x120000000#64 ∧
    calcInc Params.default 1000#32 (100#32 ++ 0#32) = some 0x80000000#64 :=
  ⟨rfl, rfl, rfl, rfl, by decide, by decide⟩

theorem met_FailedSetFreqWritesOnlyResult :
    (block staged).targets staged ∧ staged.state = .stopped ∧ (block fatal).targets fatal ∧
    fatal.state = .fatal ∧
    (let d := { p2cycle21 with targetHi := 0#32 }
     (block d).targets d ∧ calcInc (block d).params d.clkAct (d.targetHi ++ d.targetLo) = none) :=
  ⟨rfl, rfl, rfl, rfl, rfl, by decide⟩

theorem met_RepeatedSetFreqIsIdempotent :
    (block initializing).targets initializing ∧ initializing.state = .initializing ∧
    calcInc (block initializing).params initializing.clkAct
      (initializing.targetHi ++ initializing.targetLo) = some initializing.inc :=
  ⟨rfl, rfl, by decide⟩

/-- also `StopOfAnInactiveInstanceIsOk` and `ClrUnderrunZeroesTheCounter` -/
theorem met_GracefulStop_ForcedStop :
    (block p2cycle21).targets p2cycle21 ∧ p2cycle21.state = .running ∧
    (block initializing).targets initializing ∧ initializing.state = .initializing ∧
    (block staged).targets staged ∧ staged.state = .stopped ∧ (block fatal).targets fatal ∧
    fatal.state = .fatal := ⟨rfl, rfl, rfl, rfl, rfl, rfl, rfl, rfl⟩

/-- also `CommandsChangeStateOnlyAsTheTableSays` -/
theorem met_CommandFrames :
    (block p2cycle21).targets p2cycle21 ∧
    ∀ i ∈ [Instr.nop, .start 0#5 15#4, .setFreq true, .stop true, .clrUnderrun],
      ∃ e, exec i (block p2cycle21) = .next ((block p2cycle21).setTarget e) ∧
        ((block p2cycle21).setTarget e).targets e := by
  refine ⟨rfl, ?_⟩
  simp only [List.forall_mem_cons, List.not_mem_nil, false_imp_iff, implies_true, and_true]
  exact ⟨⟨_, rfl, rfl⟩, ⟨_, rfl, rfl⟩, ⟨_, rfl, rfl⟩, ⟨_, rfl, rfl⟩, ⟨_, rfl, rfl⟩⟩

theorem met_IllegalWordWritesOnlyResult :
    (block staged).insts[0]? = some staged ∧ ∀ instr, decode 0x00000005#32 ≠ .ok instr :=
  ⟨rfl, by rw [show decode 0x00000005#32 = .error .reservedOpcode by decide]; exact fun _ => nofun⟩

theorem met_StatusWordLayout :
    ({ p2cycle21 with q := List.replicate 255 0#32 } : Ddfs).q.length ≤ 255 :=
  Nat.le_of_eq List.length_replicate

/-- for `LinesWordLayout` and `ConstantRegisters`, and the increments' statements, the smallest and the
largest block -/
theorem met_ConstantRegisters :
    Params.legal { nInst := 1, nLines := 4, fifoDepth := 1, loopCycles := 1, slackCycles := 0,
                   minCount := 0 } = true ∧
    Params.legal { nInst := 16, nLines := 32, fifoDepth := 255, loopCycles := 255, slackCycles := 253,
                   minCount := 2 ^ 32 - 2 } = true ∧ 15 < 16 := by decide

/-- also `WritesStoreOnlyTheRwRegisters`: the offsets of all clauses, the first and the last among them -/
theorem met_ReadsReturnTheirRegister :
    (block staged).insts[0]? = some staged ∧
    [0x00, 0x04, 0x08, 0x0C, 0x10, 0x14, 0x18, 0x1C, 0x20, 0x24, 0x28, 0x2C, 0x30, 0x34, 0x38,
      0x3C].all (fun off => off % 4 == 0) = true ∧ 0x04 ≠ 0 :=
  ⟨rfl, by decide⟩

theorem met_OnlyAlignedWordAccessesExist :
    (3 ≠ 4 ∨ 0x08 % 4 ≠ 0) ∧ (5 ≠ 4 ∨ 0x08 % 4 ≠ 0) ∧ (4 ≠ 4 ∨ 0x07 % 4 ≠ 0) ∧ (4 ≠ 4 ∨ 0x09 % 4 ≠ 0) ∧
    (writeAccess 0 0x07 1#32).kind = .write 1#32 ∧ (readAccess 0 0x07).kind = .read := by decide

theorem met_WindowsStandAtTheirPlatformAddresses :
    0 < Params.default.nInst ∧ 0 < 0x40 ∧ 63 < 0x40 := by decide

/-- the first address behind the last window -/
theorem met_AccessOutsideTheWindowsIsNoAccess :
    Config.blockBase + 0x40 * State.reset.params.nInst ≤ Config.blockBase + 0x40 :=
  Nat.le_refl _

theorem met_SecondAccessInACycleIsRefused :
    let s := block staged { quiet with accesses := [readAccess 0 0x04, readAccess 0 0x04] }
    s.isBlock = true ∧ s.currentInputs.rst = false ∧
    2 ≤ (selectedAccesses s.params s.currentInputs.accesses).length := by decide

theorem met_ParametersOutsideTheirRangesAreRefused :
    ([{ Params.default with nInst := 0 }, { Params.default with nInst := 17 },
      { Params.default with nLines := 3 }, { Params.default with nLines := 33 },
      { Params.default with fifoDepth := 0 }, { Params.default with fifoDepth := 256 },
      { Params.default with loopCycles := 0 }, { Params.default with loopCycles := 256 },
      { Params.default with slackCycles := 254 },
      { Params.default with minCount := 2 ^ 32 - 1 }] : List Params).all (fun p =>
        p.nInst < 1 || 16 < p.nInst || p.nLines < 4 || 32 < p.nLines || p.fifoDepth < 1 ||
          255 < p.fifoDepth || p.loopCycles < 1 || 255 < p.loopCycles || 253 < p.slackCycles ||
          2 ^ 32 - 2 < p.minCount) = true := by decide

/-- also `ValidIncrementsAreInBounds`: V-I10, the greatest valid increment at 1 kHz, and the least -/
theorem met_IncrementIsTheFloorOfTheIdealCount :
    Params.default.legal = true ∧
    calcInc Params.default 1000#32 0xFA#64 = some 0xFFFFFFFE00000000#64 ∧
    calcInc Params.default 1000#32 0x7D00000000#64 = some 0#64 := by decide

/-- the clause of `T_max`, just above it, and the clause of the interval from its first valid target -/
theorem met_ValidTargetsFormAnInterval :
    Params.default.legal = true ∧ 1000 * 2 ^ 31 / (2 + 2 + 2 * 0) < 0x7D00000001 ∧
    calcIncNat Params.default 1000 0xFA = some 0xFFFFFFFE00000000 ∧ 0xFA ≤ 0xFB ∧
    0x7D00000000 ≤ 1000 * 2 ^ 31 / (2 + 2 + 2 * 0) := by decide

/-- for the four statements that ask `incInBounds`: both bounds, and segments between them -/
theorem met_CumulativeCountLaw :
    incInBounds Params.default 0#64 ∧ incInBounds Params.default largestInc ∧
    (∀ x ∈ [(0x80000000#64, 3), (largestInc, 1), (0#64, 0)], incInBounds Params.default x.1) := by
  refine ⟨⟨by decide, by decide⟩, ⟨by decide, by decide⟩, ?_⟩
  simp only [List.forall_mem_cons, List.not_mem_nil, false_imp_iff, implies_true, and_true]
  exact ⟨⟨by decide, by decide⟩, ⟨by decide, by decide⟩, ⟨by decide, by decide⟩⟩

/-- also `ChannelIsFirstInFirstOut`: a phase without and one with a teardown -/
theorem met_UnitPhaseMovesTheChannel :
    ¬(p2cycle21.ePhase = .drive ∧ p2cycle21.stopPending = true) ∧
    (let d := { p2cycle21 with stopPending := true }
     d.ePhase = .drive ∧ d.stopPending = true) ∧ loading.ePhase = .load ∧
    loading.stopPending = false ∧ loading.q.length = Params.default.fifoDepth := by decide

/-- its clauses in order, and `DriveDrivesTheSelectedPattern` -/
theorem met_EngineTransitions :
    Params.default.legal = true ∧ noSlack.legal = true ∧ staged.ePhase = .idle ∧
    loading.ePhase = .load ∧ ({ loading with stopPending := true } : Ddfs).stopPending = true ∧
    loading.stopPending = false ∧ loading.q ≠ [] ∧ starved.ePhase = .load ∧ starved.q = [] ∧
    p2cycle21.ePhase = .drive ∧ ({ p2cycle21 with stopPending := true } : Ddfs).stopPending = true ∧
    p2cycle21.stopPending = false ∧ p2cycle21.x ≠ 0#32 ∧ loading.x = 0#32 ∧
    0 < Params.default.slackCycles ∧ noSlack.slackCycles = 0 ∧ delaying.ePhase = .delay ∧
    ({ delaying with dcnt := 1#40 } : Ddfs).dcnt = 1#40 ∧ 1 < delaying.dcnt.toNat ∧
    slacking.ePhase = .slack ∧ ({ slacking with scnt := 1#8 } : Ddfs).scnt = 1#8 ∧
    1 < slacking.scnt.toNat := by decide

theorem met_EdgesOnlyInDrive : delaying.ePhase ≠ .drive ∧ staged.ePhase ≠ .drive := by decide

/-- the empty and the non-empty channel; a fresh stall at the saturated counter -/
theorem met_UnderrunStallsAndRecovers :
    let d := { starved with underrunCnt := 0xFFFFFFFF#32 }
    d.state = .running ∧ d.ePhase = .load ∧ d.stopPending = false ∧ d.q = [] ∧ d.stalled = false ∧
    loading.state = .running ∧ loading.stopPending = false ∧
    loading.q = 0#32 :: [1#32, 0#32, 1#32] := by decide

/-- `X` = 1 with an empty channel and one stall cycle, and a full channel without one -/
theorem met_HalfPeriodLaw :
    (let d := { p2cycle21 with q := [] }
     let draws := [false, false, false, false, false, true, false]
     d.state = .running ∧ d.ePhase = .drive ∧ d.stopPending = false ∧
     draws.length = 2 * d.x.toNat + Params.default.overhead + 1 ∧
     (Ddfs.quietRun Params.default (draws.take 5) d).q = [] ∧
     (Ddfs.quietRun Params.default (draws.take 6) d).q ≠ []) ∧
    ((List.replicate 6 true).length = 2 * p2cycle21.x.toNat + Params.default.overhead + 0 ∧
     (Ddfs.quietRun Params.default ((List.replicate 6 true).take 5) p2cycle21).q ≠ []) := by decide

theorem met_PrefillAndFirstEdge :
    Params.default.legal = true ∧ initializing.state = .initializing ∧ initializing.q = [] ∧
    initializing.ePhase = .idle ∧ initializing.ph = false ∧ initializing.stopPending = false := by
  decide

/-- in each phase of a run, the counters at both ends of their ranges -/
theorem met_PendingStopEndsTheRun :
    [loading, p2cycle21, delaying, { delaying with dcnt := 1#40 }, slacking,
      { slacking with scnt := 1#8 }].all (fun d =>
        decide (d.state = .running) && decide (d.ePhase ≠ .idle) &&
        decide (d.ePhase = .delay → 0 < d.dcnt.toNat ∧ d.dcnt.toNat ≤ 2 * d.x.toNat) &&
        decide (d.ePhase = .slack → 0 < d.scnt.toNat ∧ d.scnt.toNat ≤ 2) &&
        decide (2 * d.x.toNat + Params.default.overhead ≤ (List.replicate 6 true).length)) = true := by
  decide

/-- P1, cycle 2 -/
theorem met_StepRunsTheDecodedCommand :
    let s := block staged (commandCycle 0x0000F001#32)
    let a := writeAccess 0 0x00 0x0000F001#32
    s.isBlock = true ∧ s.currentInputs.rst = false ∧
    selectedAccesses s.params s.currentInputs.accesses = [(0, 0x00, a)] ∧ a.width = 4 ∧
    a.kind = .write 0x0000F001#32 ∧ decode 0x0000F001#32 = .ok (.start 0#5 15#4) ∧
    Instr.wellFormed (.start 0#5 15#4) = true := by decide

/-- a read, a register write, an illegal word, an access without effect; a cycle without an access -/
theorem met_StepRunsTheSelectedAccess :
    [readAccess 0 0x04, writeAccess 0 0x08 7#32, writeAccess 0 0x00 5#32,
      { readAccess 0 0x3F with width := 2 }].all (fun a =>
        let s := block staged { quiet with accesses := [a] }
        s.isBlock && !s.currentInputs.rst &&
          decide ((selectedAccesses s.params s.currentInputs.accesses).map (fun x => x.2.2) = [a])) =
      true ∧
    (block staged).isBlock = true ∧ (block staged).currentInputs.rst = false ∧
    selectedAccesses (block staged).params (block staged).currentInputs.accesses = [] := by decide

/-- both disjuncts: one access; a reset cycle -/
theorem met_TheBlockNeverHalts :
    let s := block staged (commandCycle 0#32)
    s.isBlock = true ∧ s.inputsAccepted ∧ (block staged { quiet with rst := true }).inputsAccepted :=
  ⟨by decide, .inr (by decide), .inl rfl⟩

theorem met_StepKeepsTheConfiguration : ∃ t, step (block p2cycle21) = .next t := ⟨_, rfl⟩

theorem met_ResetCycleResetsEveryInstance :
    let s := pair p2cycle21 staged { commandCycle 0x0000F001#32 with rst := true }
    s.isBlock = true ∧ s.currentInputs.rst = true := by decide

theorem met_ResetSatisfiesTheBlockInvariant : Params.default.legal = true := by decide

theorem p2cycle21_inv : p2cycle21.Inv { Params.default with nInst := 2 } where
  own_iff_active := by decide
  idle_iff_not_running := by decide
  stop_pending_running := by decide
  stalled_in_load := by decide
  level_bounded := by decide
  inactive_released := by decide
  initializing_not_full := by decide
  active_inc := fun _ => ⟨by decide, by decide⟩
  delay_counts := by decide
  slack_counts := by decide
  lines_exist := by decide

theorem fatal_inv : fatal.Inv { Params.default with nInst := 2 } where
  own_iff_active := by decide
  idle_iff_not_running := by decide
  stop_pending_running := by decide
  stalled_in_load := by decide
  level_bounded := by decide
  inactive_released := by decide
  initializing_not_full := by decide
  active_inc := fun h => absurd h (by decide)
  delay_counts := by decide
  slack_counts := by decide
  lines_exist := by decide

/-- a Running instance and a Fatal one, in any cycle -/
theorem pair_inv (c : CycleInputs) : (pair p2cycle21 fatal c).Inv where
  is_block := rfl
  each := by
    intro d hd
    rcases List.mem_cons.1 hd with rfl | hd
    · exact p2cycle21_inv
    · rw [List.mem_singleton.1 hd]; exact fatal_inv
  one_owner := by
    intro i j d e hij hi hj hd he
    match i, j, hi, hj with
    | 0, 0, _, _ => exact absurd rfl hij
    | 1, _, hi, _ => cases hi; exact absurd hd (by decide)
    | _, 1, _, hj => cases hj; exact absurd he (by decide)
    | _ + 2, _, hi, _ => cases hi
    | _, _ + 2, _, hj => cases hj

/-- a graceful `STOP` of instance 0, with the scheduler ready -/
def stopPair : State := pair p2cycle21 fatal (commandCycle 0x00000003#32)

theorem met_EveryStepKeepsTheBlockInvariant : stopPair.Inv ∧ ∃ t, step stopPair = .next t :=
  ⟨pair_inv _, _, rfl⟩

/-- its two conjuncts: a Stopped instance with the invariant, and the Running one of `stopPair` -/
theorem met_ReadySchedulerNeverStarvesTheEngine :
    (Ddfs.reset.Inv Params.default ∧ Ddfs.reset.state = .stopped) ∧
    stopPair.Inv ∧ (∃ t, step stopPair = .next t) ∧ stopPair.insts[0]? = some p2cycle21 ∧
    stopPair.currentInputs.schedReady.getLsbD 0 = true ∧ p2cycle21.WellFed stopPair.params :=
  ⟨⟨{ own_iff_active := by decide, idle_iff_not_running := by decide,
      stop_pending_running := by decide, stalled_in_load := by decide, level_bounded := by decide,
      inactive_released := by decide, initializing_not_full := by decide,
      active_inc := fun h => absurd h (by decide), delay_counts := by decide,
      slack_counts := by decide, lines_exist := by decide }, rfl⟩,
    pair_inv _, ⟨_, rfl⟩, rfl, by decide,
    { not_stalled := rfl, nearly_full := by decide, full_at_load := by decide, bounded := by decide }⟩

theorem met_FatalIsLeftOnlyByReset :
    stopPair.Inv ∧ (∃ t, step stopPair = .next t) ∧ stopPair.currentInputs.rst = false ∧
    stopPair.insts[1]? = some fatal ∧ fatal.state = .fatal :=
  ⟨pair_inv _, ⟨_, rfl⟩, rfl, rfl, rfl⟩

theorem met_LineLossIsFatalToAnOwner : p2cycle21.own = true ∧ staged.own = false := by decide

theorem met_SimultaneousEventsFollowThePhaseOrder :
    p2cycle21.state = .running ∧ p2cycle21.own = true ∧ p2cycle21.ePhase = .drive ∧
    starved.state = .running ∧ starved.ePhase = .load ∧ starved.stopPending = false ∧
    starved.stalled = false ∧ starved.q = [] := by decide

/-- instance 0 beside two different neighbours and two different accesses to window 1 -/
theorem met_InstancesAreIndependent :
    let s := pair p2cycle21 staged { quiet with accesses := [writeAccess 1 0x00 0x0000F041#32] }
    let s' := pair p2cycle21 fatal { quiet with accesses := [readAccess 1 0x04], linesLost := 2#16 }
    (∃ t, step s = .next t) ∧ (∃ t', step s' = .next t') ∧ s.params = s'.params ∧
    s.insts[0]? = s'.insts[0]? ∧ s.currentInputs.rst = s'.currentInputs.rst ∧
    s.currentInputs.schedReady.getLsbD 0 = s'.currentInputs.schedReady.getLsbD 0 ∧
    s.currentInputs.linesLost.getLsbD 0 = s'.currentInputs.linesLost.getLsbD 0 ∧
    ¬ s.accessesWindow 0 ∧ ¬ s'.accessesWindow 0 := by
  refine ⟨⟨_, rfl⟩, ⟨_, rfl⟩, rfl, rfl, rfl, by decide, by decide, ?_, ?_⟩ <;>
    (rintro ⟨off, a, h⟩; cases List.mem_singleton.1 h)

/-- instance 0 beside a command to window 1 -/
theorem met_UnaccessedInstanceRunsItsUnits :
    let s := pair p2cycle21 staged { quiet with accesses := [writeAccess 1 0x00 0x0000F041#32] }
    (∃ t, step s = .next t) ∧ s.currentInputs.rst = false ∧ s.insts[0]? = some p2cycle21 ∧
    ¬ s.accessesWindow 0 := by
  refine ⟨⟨_, rfl⟩, rfl, rfl, ?_⟩
  rintro ⟨off, a, h⟩; cases List.mem_singleton.1 h

/-- the last line of the owner, and the first without one -/
theorem met_LinesShowTheirOwnersOutput :
    stopPair.Inv ∧ 3 < stopPair.params.nLines ∧ stopPair.insts[0]? = some p2cycle21 ∧
    p2cycle21.own = true ∧ p2cycle21.pinBase.toNat ≤ 3 ∧ 3 ≤ p2cycle21.pinBase.toNat + 3 ∧
    4 < stopPair.params.nLines ∧
    ∀ d ∈ stopPair.insts, ¬(d.own = true ∧ d.pinBase.toNat ≤ 4 ∧ 4 ≤ d.pinBase.toNat + 3) :=
  ⟨pair_inv _, by decide, rfl, by decide, by decide, by decide, by decide, by decide⟩

end Sys2Proof.Tests
end

section
/-! Proofs: the scope of the model (spec/00_scope.md). -/

namespace Sys2Proof

/-- The ranges of 00_scope.md R8, parameter by parameter. -/
theorem Params.legal_iff {p : Params} :
    p.legal = true ↔
      (1 ≤ p.nInst ∧ p.nInst ≤ 16) ∧ (4 ≤ p.nLines ∧ p.nLines ≤ 32) ∧
      (1 ≤ p.fifoDepth ∧ p.fifoDepth ≤ 255) ∧ (1 ≤ p.loopCycles ∧ p.loopCycles ≤ 255) ∧
      p.slackCycles ≤ 253 ∧ p.minCount ≤ 2 ^ 32 - 2 := by
  simp [Params.legal, and_assoc]

namespace Machine

/-- A block has legal parameters and `N_INST` instances. -/
theorem State.isBlock_iff {s : State} :
    s.isBlock = true ↔ s.params.legal = true ∧ s.insts.length = s.params.nInst := by
  simp [State.isBlock]

/-- What is no block makes no step, whatever its inputs, `rst` among them
(93_implementation_defined.md I23). -/
theorem step_of_not_isBlock {s : State} (h : ¬ s.isBlock = true) : step s = .refused .notABlock :=
  if_neg h

/-- Settles O28: legal parameters lie in all the ranges of R8, so one out of range is no block. -/
theorem parametersOutsideTheirRangesAreRefused :
    Obligations.ParametersOutsideTheirRangesAreRefused := by
  intro s hout
  apply step_of_not_isBlock
  intro hblock
  obtain ⟨hlegal, -⟩ := State.isBlock_iff.1 hblock
  have hranges := Params.legal_iff.1 hlegal
  omega

end Machine

end Sys2Proof
end

section
/-! Proofs: the invariants of the block (spec/10_state.md R39, R40). A cycle keeps the invariant as a
whole, its host phase does not: a graceful `STOP` reaches a stalled engine. `Ddfs.PhaseInv` is what
holds of an instance between the phases; the unit phase and the promotion restore the rest. -/

namespace Sys2Proof.Machine

-- ---------------------------------------------------------------- the reset state (O51)

/-- Settles O51: the reset state is written out in the model as R40 lists it. -/
theorem resetStateHoldsTheResetColumn : Obligations.ResetStateHoldsTheResetColumn := ⟨rfl, rfl⟩

-- ---------------------------------------------------------------- an instance between the phases

/-- A Stopped or Fatal instance as R39 items 1 to 6 have it: it owns nothing and holds nothing. -/
structure Ddfs.Released (d : Ddfs) : Prop where
  inactive : d.state = .stopped ∨ d.state = .fatal
  not_own : d.own = false
  idle : d.ePhase = .idle
  not_pending : d.stopPending = false
  not_stalled : d.stalled = false
  cleared : d.q = [] ∧ d.out = 0#4 ∧ d.ph = false ∧ d.dcnt = 0#40 ∧ d.scnt = 0#8

/-- An Initializing instance: it owns its lines, its engine is idle, its channel is being filled. Between
the phases of a cycle the channel may be full. -/
structure Ddfs.Filling (p : Params) (d : Ddfs) : Prop where
  initializing : d.state = .initializing
  own : d.own = true
  idle : d.ePhase = .idle
  not_pending : d.stopPending = false
  not_stalled : d.stalled = false
  level_bounded : d.q.length ≤ p.fifoDepth
  inc_bounds : incInBounds p d.inc
  lines_exist : d.pinBase.toNat + 3 < p.nLines

/-- What the phase of a Running instance says of its counters and its stall (R39 item 4, 40_engine.md R122
to R124). -/
def Ddfs.PhaseCounts (p : Params) (d : Ddfs) : Prop :=
  match d.ePhase with
  | .idle => False
  | .load => True
  | .drive => d.stalled = false
  | .delay => d.stalled = false ∧ 0 < d.dcnt.toNat ∧ d.dcnt.toNat ≤ d.delayCycles p
  | .slack => d.stalled = false ∧ 0 < d.scnt.toNat ∧ d.scnt.toNat ≤ p.slackCycles

/-- A Running instance. Between the phases of a cycle a stop may be pending on a stalled engine. -/
structure Ddfs.Cycling (p : Params) (d : Ddfs) : Prop where
  running : d.state = .running
  own : d.own = true
  level_bounded : d.q.length ≤ p.fifoDepth
  inc_bounds : incInBounds p d.inc
  lines_exist : d.pinBase.toNat + 3 < p.nLines
  counts : d.PhaseCounts p

/-- The invariant of an instance between the phases of a cycle, by `STATE`. -/
inductive Ddfs.PhaseInv (p : Params) (d : Ddfs) : Prop where
  | released (h : d.Released)
  | filling (h : d.Filling p)
  | cycling (h : d.Cycling p)

theorem Ddfs.PhaseCounts.not_idle {p : Params} {d : Ddfs} (h : d.PhaseCounts p) :
    d.ePhase ≠ .idle := by
  intro hp; simp [Ddfs.PhaseCounts, hp] at h

theorem Ddfs.PhaseCounts.load_of_stalled {p : Params} {d : Ddfs} (h : d.PhaseCounts p)
    (hs : d.stalled = true) : d.ePhase = .load := by
  cases hp : d.ePhase <;> simp [Ddfs.PhaseCounts, hp, hs] at h ⊢

theorem Ddfs.phaseCounts_delay_iff {p : Params} {d : Ddfs} (hp : d.ePhase = .delay) :
    d.PhaseCounts p ↔ d.stalled = false ∧ 0 < d.dcnt.toNat ∧ d.dcnt.toNat ≤ d.delayCycles p := by
  simp only [Ddfs.PhaseCounts, hp]

theorem Ddfs.phaseCounts_slack_iff {p : Params} {d : Ddfs} (hp : d.ePhase = .slack) :
    d.PhaseCounts p ↔ d.stalled = false ∧ 0 < d.scnt.toNat ∧ d.scnt.toNat ≤ p.slackCycles := by
  simp only [Ddfs.PhaseCounts, hp]

theorem Ddfs.PhaseCounts.not_stalled {p : Params} {d : Ddfs} (h : d.PhaseCounts p)
    (hp : d.ePhase ≠ .load) : d.stalled = false :=
  Bool.eq_false_iff.2 fun hs => hp (h.load_of_stalled hs)

theorem Ddfs.PhaseCounts.of_load {p : Params} {d : Ddfs} (hp : d.ePhase = .load) :
    d.PhaseCounts p := by
  simp [Ddfs.PhaseCounts, hp]

theorem Ddfs.Released.not_initializing {d : Ddfs} (h : d.Released) : d.state ≠ .initializing := by
  obtain hs | hs := h.inactive <;> simp [hs]

theorem Ddfs.Released.not_running {d : Ddfs} (h : d.Released) : d.state ≠ .running := by
  obtain hs | hs := h.inactive <;> simp [hs]

theorem Ddfs.PhaseInv.cycling_of_running {p : Params} {d : Ddfs} (h : d.PhaseInv p)
    (hrun : d.state = .running) : d.Cycling p := by
  cases h with
  | released h => exact absurd hrun h.not_running
  | filling h => simpa [hrun] using h.initializing
  | cycling h => exact h

theorem Ddfs.PhaseInv.released_of_not_own {p : Params} {d : Ddfs} (h : d.PhaseInv p)
    (hown : d.own = false) : d.Released := by
  cases h with
  | released h => exact h
  | filling h => simpa [hown] using h.own
  | cycling h => simpa [hown] using h.own

-- ---------------------------------------------------------------- its relation to the invariant

theorem Ddfs.Inv.not_stalled {p : Params} {d : Ddfs} (h : d.Inv p)
    (hp : ¬(d.state = .running ∧ d.ePhase = .load)) : d.stalled = false :=
  Bool.eq_false_iff.2 fun hs =>
    have ⟨hrun, hload, _⟩ := h.stalled_in_load hs
    hp ⟨hrun, hload⟩

theorem Ddfs.Inv.not_pending {p : Params} {d : Ddfs} (h : d.Inv p) (hrun : d.state ≠ .running) :
    d.stopPending = false :=
  Bool.eq_false_iff.2 fun hs => hrun (h.stop_pending_running hs)

theorem Ddfs.Inv.released {p : Params} {d : Ddfs} (h : d.Inv p)
    (hin : d.state = .stopped ∨ d.state = .fatal) : d.Released :=
  have hrun : d.state ≠ .running := by obtain hs | hs := hin <;> simp [hs]
  have hown : ¬d.own = true := by
    rw [h.own_iff_active]; obtain hs | hs := hin <;> simp [hs]
  { inactive := hin
    not_own := Bool.eq_false_iff.2 hown
    idle := h.idle_iff_not_running.2 hrun
    not_pending := h.not_pending hrun
    not_stalled := h.not_stalled (by simp [hrun])
    cleared := h.inactive_released hin }

theorem Ddfs.Inv.filling {p : Params} {d : Ddfs} (h : d.Inv p) (hs : d.state = .initializing) :
    d.Filling p :=
  have hrun : d.state ≠ .running := by simp [hs]
  have hown := h.own_iff_active.2 (.inl hs)
  { initializing := hs
    own := hown
    idle := h.idle_iff_not_running.2 hrun
    not_pending := h.not_pending hrun
    not_stalled := h.not_stalled (by simp [hrun])
    level_bounded := h.level_bounded
    inc_bounds := h.active_inc (.inl hs)
    lines_exist := h.lines_exist hown }

theorem Ddfs.Inv.phaseCounts {p : Params} {d : Ddfs} (h : d.Inv p) (hrun : d.state = .running) :
    d.PhaseCounts p := by
  unfold Ddfs.PhaseCounts
  split <;> rename_i hp
  · exact h.idle_iff_not_running.1 hp hrun
  · trivial
  · exact h.not_stalled (by simp [hp])
  · exact ⟨h.not_stalled (by simp [hp]), h.delay_counts hp⟩
  · exact ⟨h.not_stalled (by simp [hp]), h.slack_counts hp⟩

theorem Ddfs.Inv.cycling {p : Params} {d : Ddfs} (h : d.Inv p) (hs : d.state = .running) :
    d.Cycling p :=
  have hown := h.own_iff_active.2 (.inr hs)
  { running := hs
    own := hown
    level_bounded := h.level_bounded
    inc_bounds := h.active_inc (.inr hs)
    lines_exist := h.lines_exist hown
    counts := h.phaseCounts hs }

theorem Ddfs.Inv.phaseInv {p : Params} {d : Ddfs} (h : d.Inv p) : d.PhaseInv p := by
  cases hs : d.state with
  | stopped => exact .released (h.released (.inl hs))
  | fatal => exact .released (h.released (.inr hs))
  | initializing => exact .filling (h.filling hs)
  | running => exact .cycling (h.cycling hs)

theorem Ddfs.Released.inv {p : Params} {d : Ddfs} (h : d.Released) : d.Inv p :=
  have hinit := h.not_initializing
  have hrun := h.not_running
  { own_iff_active := by simp [h.not_own, hinit, hrun]
    idle_iff_not_running := by simp [h.idle, hrun]
    stop_pending_running := by simp [h.not_pending]
    stalled_in_load := by simp [h.not_stalled]
    level_bounded := by simp [h.cleared]
    inactive_released := fun _ => h.cleared
    initializing_not_full := by simp [hinit]
    active_inc := by simp [hinit, hrun]
    delay_counts := by simp [h.idle]
    slack_counts := by simp [h.idle]
    lines_exist := by simp [h.not_own] }

theorem Ddfs.Filling.inv {p : Params} {d : Ddfs} (h : d.Filling p)
    (hroom : d.q.length < p.fifoDepth) : d.Inv p where
  own_iff_active := by simp [h.own, h.initializing]
  idle_iff_not_running := by simp [h.idle, h.initializing]
  stop_pending_running := by simp [h.not_pending]
  stalled_in_load := by simp [h.not_stalled]
  level_bounded := h.level_bounded
  inactive_released := by simp [h.initializing]
  initializing_not_full := fun _ => hroom
  active_inc := fun _ => h.inc_bounds
  delay_counts := by simp [h.idle]
  slack_counts := by simp [h.idle]
  lines_exist := fun _ => h.lines_exist

theorem Ddfs.Cycling.inv {p : Params} {d : Ddfs} (h : d.Cycling p)
    (hpend : d.stalled = true → d.stopPending = false) : d.Inv p where
  own_iff_active := by simp [h.own, h.running]
  idle_iff_not_running := by simp [h.counts.not_idle, h.running]
  stop_pending_running := fun _ => h.running
  stalled_in_load := fun hs => ⟨h.running, h.counts.load_of_stalled hs, hpend hs⟩
  level_bounded := h.level_bounded
  inactive_released := by simp [h.running]
  initializing_not_full := by simp [h.running]
  active_inc := fun _ => h.inc_bounds
  delay_counts := fun hp => ((Ddfs.phaseCounts_delay_iff hp).1 h.counts).2
  slack_counts := fun hp => ((Ddfs.phaseCounts_slack_iff hp).1 h.counts).2
  lines_exist := fun _ => h.lines_exist

-- ---------------------------------------------------------------- the host phase on an instance

/-- `calc_inc` answers an increment in the bounds of 10_state.md R31: the check of R150 is the lower one
multiplied out (41_scheduler.md R151). -/
theorem calcInc_inBounds {p : Params} {clk : Word} {t inc : DWord} (hL : 0 < p.loopCycles)
    (h : calcInc p clk t = some inc) : incInBounds p inc := by
  obtain ⟨⟨-, ht⟩, hcheck, hlt, hinc⟩ := calcIncNat_eq_some.mp (calcInc_eq_some.mp h)
  refine ⟨?_, hlt⟩
  rw [hinc, Nat.le_div_iff_mul_le (Nat.mul_pos hL (Nat.pos_of_ne_zero ht))]
  apply Nat.le_sub_of_add_le
  calc p.minCount * 2 ^ 32 * (p.loopCycles * t.toNat) + p.overhead * t.toNat * 2 ^ 32
      = t.toNat * (p.overhead + p.loopCycles * p.minCount) * 2 ^ 32 := by ring
    _ ≤ clk.toNat * 2 ^ 31 * 2 ^ 32 := Nat.mul_le_mul_right _ hcheck
    _ = clk.toNat * 2 ^ 63 := by ring

/-- The invariant does not read the host's registers, `UNDERRUN_CNT` or `RESULT`. -/
theorem Ddfs.PhaseInv.hostRegisters {p : Params} {d : Ddfs} (h : d.PhaseInv p)
    (clk lo hi cnt : Word) (code : Result) :
    Ddfs.PhaseInv p { d with
      clkHz := clk, targetLo := lo, targetHi := hi, underrunCnt := cnt, result := code } := by
  cases h with
  | released h => exact .released { h with }
  | filling h => exact .filling { h with }
  | cycling h => exact .cycling { h with }

theorem Ddfs.PhaseInv.withResult {p : Params} {d : Ddfs} (h : d.PhaseInv p) (code : Result) :
    (d.withResult code).PhaseInv p :=
  h.hostRegisters d.clkHz d.targetLo d.targetHi d.underrunCnt code

theorem Ddfs.PhaseInv.writeReg {p : Params} {d : Ddfs} (h : d.PhaseInv p) (off : Nat) (v : Word) :
    (d.writeReg off v).PhaseInv p := by
  unfold Ddfs.writeReg
  split
  · exact h.hostRegisters v d.targetLo d.targetHi d.underrunCnt d.result
  · exact h.hostRegisters d.clkHz v d.targetHi d.underrunCnt d.result
  · exact h.hostRegisters d.clkHz d.targetLo v d.underrunCnt d.result
  · exact h

/-- Teardown and line loss establish the invariant, whatever they find (43_controller.md R214,
60_exceptions.md R266). -/
theorem Ddfs.release_released {st : RunState} (hst : st = .stopped ∨ st = .fatal) (d : Ddfs) :
    (d.release st).Released :=
  { inactive := hst, not_own := rfl, idle := rfl, not_pending := rfl, not_stalled := rfl
    cleared := ⟨rfl, rfl, rfl, rfl, rfl⟩ }

theorem Ddfs.startRun_filling {p : Params} {pinBase : BitVec 5} {pat : BitVec 4} {inc : DWord}
    {d : Ddfs} (hlines : pinBase.toNat + 3 < p.nLines) (hinc : incInBounds p inc) :
    (d.startRun pinBase pat inc).Filling p :=
  { initializing := rfl, own := rfl, idle := rfl, not_pending := rfl, not_stalled := rfl
    level_bounded := Nat.zero_le _, inc_bounds := hinc, lines_exist := hlines }

theorem Ddfs.PhaseInv.setFreqCommand {p : Params} {d : Ddfs} (hL : 0 < p.loopCycles)
    (h : d.PhaseInv p) (pr : Bool) : (d.setFreqCommand p pr).PhaseInv p := by
  obtain ⟨-, he⟩ | ⟨inc, hact, hcalc, he⟩ := d.setFreqCommand_cases p pr
  · rw [he]; exact h.withResult _
  · rw [he]
    have hinc := calcInc_inBounds hL hcalc
    cases h with
    | released h => simp [Ddfs.active_iff, h.not_initializing, h.not_running] at hact
    | filling h => exact .filling { h with inc_bounds := hinc }
    | cycling h => exact .cycling { h with inc_bounds := hinc }

theorem Ddfs.PhaseInv.stopCommand {p : Params} {d : Ddfs} (h : d.PhaseInv p) (force : Bool) :
    (d.stopCommand force).PhaseInv p := by
  obtain ⟨-, he⟩ | ⟨-, he⟩ | ⟨hrun, -, he⟩ := d.stopCommand_cases force
  · rw [he]; exact h.withResult _
  · rw [he]; exact (PhaseInv.released (d.release_released (.inl rfl))).withResult _
  · rw [he]; exact .cycling { h.cycling_of_running hrun with }

/-- The lines a successful `START` takes exist (43_controller.md R203). -/
theorem pinsAvailable_lines_exist {p : Params} {avail : BitVec 32} {pb : Nat}
    (hlines : 4 ≤ p.nLines) (h : pinsAvailable p avail pb = true) : pb + 3 < p.nLines := by
  simp only [pinsAvailable, Bool.and_eq_true, decide_eq_true_eq] at h
  obtain ⟨⟨⟨⟨hpb, -⟩, -⟩, -⟩, -⟩ := h
  omega

theorem CommandEffect.keeps_phaseInv {s : State} {f : Ddfs → Ddfs} {d : Ddfs}
    (hlegal : s.params.legal = true) (hf : CommandEffect s f) (h : d.PhaseInv s.params) :
    (f d).PhaseInv s.params := by
  obtain ⟨-, ⟨hlines, -⟩, -, ⟨hL, -⟩, -, -⟩ := Params.legal_iff.1 hlegal
  cases hf with
  | nop => exact h.withResult _
  | start pinBase pat =>
    obtain ⟨code, he, -⟩ | ⟨inc, -, hpins, -, hcalc, he⟩ := d.startCommand_cases s.params
      (pinsAvailable s.params s.linesAvail pinBase.toNat) (s.linesTaken pinBase.toNat) pinBase pat
    · rw [he]; exact h.withResult _
    · rw [he]
      exact .filling (Ddfs.startRun_filling (pinsAvailable_lines_exist hlines hpins)
        (calcInc_inBounds hL hcalc))
  | setFreq pr => exact h.setFreqCommand hL pr
  | stop force => exact h.stopCommand force
  | clrUnderrun => exact h.hostRegisters d.clkHz d.targetLo d.targetHi 0#32 .ok
  | illegal => exact h.withResult _

theorem HostEffect.keeps_phaseInv {s : State} {i : Nat} {f : Ddfs → Ddfs} {d : Ddfs}
    (hlegal : s.params.legal = true) (hf : HostEffect s i f) (h : d.PhaseInv s.params) :
    (f d).PhaseInv s.params := by
  cases hf with
  | nothing => exact h
  | write off v => exact h.writeReg off v
  | command hc => exact hc.keeps_phaseInv (s := { s with cmdWindow := i }) hlegal h

-- ---------------------------------------------------------------- the engine on a Running instance

/-- Everything `DELAY` can do (40_engine.md R123). -/
theorem Ddfs.delayPhase_cases (p : Params) (d : Ddfs) :
    (d.dcnt = 1#40 ∧ 0 < p.slackCycles ∧
      d.delayPhase p = { d with dcnt := 0#40, scnt := BitVec.ofNat 8 p.slackCycles, ePhase := .slack }) ∨
    (d.dcnt = 1#40 ∧ p.slackCycles = 0 ∧
      d.delayPhase p = { d with dcnt := 0#40, ePhase := .load }) ∨
    (d.dcnt ≠ 1#40 ∧ d.delayPhase p = { d with dcnt := d.dcnt - 1#40 }) := by
  by_cases hd : d.dcnt = 1#40
  · obtain ⟨hs, he⟩ | ⟨hs, he⟩ := d.enterSlack_cases p
    · exact .inl ⟨hd, hs, by simp [Ddfs.delayPhase, hd, he]⟩
    · exact .inr (.inl ⟨hd, hs, by simp [Ddfs.delayPhase, hd, he]⟩)
  · exact .inr (.inr ⟨hd, by simp [Ddfs.delayPhase, hd]⟩)

/-- `SCNT` holds the length of the slack: 8 bits suffice (00_scope.md R8). -/
theorem slackCycles_toNat {p : Params} (hlegal : p.legal = true) :
    (BitVec.ofNat 8 p.slackCycles).toNat = p.slackCycles := by
  obtain ⟨-, -, -, -, hS, -⟩ := Params.legal_iff.1 hlegal
  rw [BitVec.toNat_ofNat]; omega

/-- `DCNT` holds the length of the delay: `L * X` fits 40 bits (10_state.md R21). -/
theorem Ddfs.delayCycles_toNat {p : Params} (hlegal : p.legal = true) (d : Ddfs) :
    (BitVec.ofNat 40 (d.delayCycles p)).toNat = d.delayCycles p := by
  obtain ⟨-, -, -, ⟨-, hL⟩, -, -⟩ := Params.legal_iff.1 hlegal
  have hbound : d.delayCycles p ≤ 255 * 2 ^ 32 := Nat.mul_le_mul hL d.x.isLt.le
  rw [BitVec.toNat_ofNat]; omega

theorem Ddfs.Cycling.loadPhase {p : Params} {d : Ddfs} (h : d.Cycling p) (hp : d.ePhase = .load) :
    d.loadPhase.Cycling p := by
  obtain ⟨-, he⟩ | ⟨c, rest, -, hq, he⟩ | ⟨-, -, he⟩ := d.loadPhase_cases
  · rw [he]; exact { h with counts := rfl }
  · have hlevel : rest.length ≤ p.fifoDepth := by
      have := h.level_bounded
      simp only [hq, List.length_cons] at this
      omega
    rw [he]; exact { h with level_bounded := hlevel, counts := rfl }
  · obtain ⟨-, he'⟩ | ⟨-, he'⟩ := d.stall_cases
    · rw [he, he']; exact h
    · rw [he, he']; exact { h with counts := .of_load hp }

theorem Ddfs.Cycling.driveEdge {p : Params} {d : Ddfs} (hlegal : p.legal = true) (h : d.Cycling p)
    (hp : d.ePhase = .drive) : (d.driveEdge p).Cycling p := by
  have hstall : d.stalled = false := h.counts.not_stalled (by simp [hp])
  obtain ⟨hd, he⟩ | ⟨-, hs, he⟩ | ⟨-, -, he⟩ := d.driveEdge_cases p
  · have hcnt := d.delayCycles_toNat hlegal
    rw [he]; exact { h with counts := ⟨hstall, hcnt.symm ▸ hd, hcnt.le⟩ }
  · have hcnt := slackCycles_toNat hlegal
    rw [he]; exact { h with counts := ⟨hstall, hcnt.symm ▸ hs, hcnt.le⟩ }
  · rw [he]; exact { h with counts := .of_load rfl }

theorem Ddfs.Cycling.delayPhase {p : Params} {d : Ddfs} (hlegal : p.legal = true) (h : d.Cycling p)
    (hp : d.ePhase = .delay) : (d.delayPhase p).Cycling p := by
  obtain ⟨hstall, hpos, hle⟩ := (Ddfs.phaseCounts_delay_iff hp).1 h.counts
  obtain ⟨-, hs, he⟩ | ⟨-, -, he⟩ | ⟨hd, he⟩ := d.delayPhase_cases p
  · have hcnt := slackCycles_toNat hlegal
    rw [he]; exact { h with counts := ⟨hstall, hcnt.symm ▸ hs, hcnt.le⟩ }
  · rw [he]; exact { h with counts := .of_load rfl }
  · have hcnt : (d.dcnt - 1#40).toNat = d.dcnt.toNat - 1 := by bv_omega
    have hd' : d.dcnt.toNat ≠ 1 := by bv_omega
    have hpos' : 0 < (d.dcnt - 1#40).toNat := by omega
    have hle' : (d.dcnt - 1#40).toNat ≤ d.delayCycles p := by omega
    have hphase : ({ d with dcnt := d.dcnt - 1#40 } : Ddfs).ePhase = .delay := hp
    rw [he]; exact { h with counts := (phaseCounts_delay_iff hphase).2 ⟨hstall, hpos', hle'⟩ }

theorem Ddfs.Cycling.slackPhase {p : Params} {d : Ddfs} (h : d.Cycling p) (hp : d.ePhase = .slack) :
    d.slackPhase.Cycling p := by
  obtain ⟨hstall, hpos, hle⟩ := (Ddfs.phaseCounts_slack_iff hp).1 h.counts
  by_cases hs : d.scnt = 1#8
  · exact { h with counts := .of_load (by simp [Ddfs.slackPhase, hs]) }
  · have hcnt : (d.scnt - 1#8).toNat = d.scnt.toNat - 1 := by bv_omega
    have hs' : d.scnt.toNat ≠ 1 := by bv_omega
    have hpos' : 0 < (d.scnt - 1#8).toNat := by omega
    have hle' : (d.scnt - 1#8).toNat ≤ p.slackCycles := by omega
    have hphase : d.slackPhase.ePhase = .slack := by simp [Ddfs.slackPhase, hs]
    exact { h with counts := (phaseCounts_slack_iff hphase).2 ⟨hstall, hpos', hle'⟩ }

/-- The engine's rule keeps a Running instance so, unless it tears down. -/
theorem Ddfs.Cycling.engineRule {p : Params} {d : Ddfs} (hlegal : p.legal = true) (h : d.Cycling p)
    (ht : d.engineTearsDown = false) : (d.engineRule p).Cycling p := by
  obtain ⟨-, hload, hdrive, hdelay, hslack⟩ := d.engineRule_of_phase p
  cases hp : d.ePhase with
  | idle => exact absurd hp h.counts.not_idle
  | load => rw [hload hp]; exact h.loadPhase hp
  | drive =>
    have hpend : d.stopPending = false := by simpa [Ddfs.engineTearsDown, hp] using ht
    have he : d.drivePhase p = d.driveEdge p := by simp [Ddfs.drivePhase, hpend]
    rw [hdrive hp, he]; exact h.driveEdge hlegal hp
  | delay => rw [hdelay hp]; exact h.delayPhase hlegal hp
  | slack => rw [hslack hp]; exact h.slackPhase hp

/-- No rule but that of `LOAD` sets `STALLED` (40_engine.md R121 to R124). -/
theorem Ddfs.stalled_of_engineRule {p : Params} {d : Ddfs} (hp : d.ePhase ≠ .load)
    (hs : (d.engineRule p).stalled = true) : d.stalled = true := by
  obtain ⟨hidle, -, hdrive, hdelay, hslack⟩ := d.engineRule_of_phase p
  cases hphase : d.ePhase with
  | idle => rwa [hidle hphase] at hs
  | load => exact absurd hphase hp
  | drive =>
    rw [hdrive hphase, Ddfs.drivePhase] at hs
    split at hs
    · simp at hs
    · obtain ⟨-, he⟩ | ⟨-, -, he⟩ | ⟨-, -, he⟩ := d.driveEdge_cases p <;> rwa [he] at hs
  | delay =>
    rw [hdelay hphase] at hs
    obtain ⟨-, -, he⟩ | ⟨-, -, he⟩ | ⟨-, he⟩ := d.delayPhase_cases p <;> rwa [he] at hs
  | slack => rwa [hslack hphase] at hs

/-- `LOAD` ends a stall where a stop is pending (R39 item 4, 40_engine.md R121). -/
theorem Ddfs.loadPhase_not_pending {d : Ddfs} (hs : d.loadPhase.stalled = true) :
    d.loadPhase.stopPending = false := by
  obtain ⟨-, he⟩ | ⟨c, rest, hpend, -, he⟩ | ⟨hpend, -, he⟩ := d.loadPhase_cases
  · simp [he] at hs
  · rw [he]; exact hpend
  · obtain ⟨-, he'⟩ | ⟨-, he'⟩ := d.stall_cases <;> rw [he, he'] <;> exact hpend

/-- The engine's rule restores R39 item 4 on a Running instance. -/
theorem Ddfs.Cycling.engineRule_not_pending {p : Params} {d : Ddfs} (h : d.Cycling p)
    (hs : (d.engineRule p).stalled = true) : (d.engineRule p).stopPending = false := by
  by_cases hp : d.ePhase = .load
  · obtain ⟨-, hload, -⟩ := d.engineRule_of_phase p
    rw [hload hp] at hs ⊢
    exact Ddfs.loadPhase_not_pending hs
  · exact absurd (h.counts.load_of_stalled (Ddfs.stalled_of_engineRule hp hs)) hp

-- ---------------------------------------------------------------- the phases after the host phase

theorem Ddfs.PhaseInv.lineLossPhase {p : Params} {d : Ddfs} (h : d.PhaseInv p) (lost : Bool) :
    (d.lineLossPhase lost).PhaseInv p := by
  obtain ⟨-, -, he⟩ | ⟨-, he⟩ := d.lineLossPhase_cases lost
  · rw [he]; exact .released (d.release_released (.inr rfl))
  · rwa [he]

/-- The scheduler's push, after the engine has popped, stays within the channel (42_channel.md R183). -/
theorem Ddfs.push_level_bounded {p : Params} {ready : Bool} {d : Ddfs}
    (ht : d.engineTearsDown = false) (hs : d.schedSteps p ready = true) (c : Word) :
    ((d.engineRule p).q ++ [c]).length ≤ p.fifoDepth := by
  obtain ⟨-, -, hroom⟩ := Ddfs.schedSteps_iff.1 hs
  have hq := d.engineRule_q p (mt Ddfs.engineTearsDown_iff.2 (by simp [ht]))
  have hlen : (d.engineRule p).q.length ≤ d.q.length := by
    rw [hq]; split <;> simp
  simp only [List.length_append, List.length_singleton]
  omega

/-- The engine and the scheduler leave an inactive instance as it is. -/
theorem Ddfs.Released.unitPhase_eq {d : Ddfs} (h : d.Released) (p : Params) (ready : Bool) :
    d.unitPhase p ready = d := by
  obtain ⟨hidle, -⟩ := d.engineRule_of_phase p
  obtain ⟨ht, -⟩ | ⟨-, hs, -⟩ | ⟨-, -, he⟩ := d.unitPhase_cases p ready
  · simp [Ddfs.engineTearsDown, h.idle] at ht
  · obtain ⟨hactive, -⟩ := Ddfs.schedSteps_iff.1 hs
    simp [h.not_initializing, h.not_running] at hactive
  · rw [he, hidle h.idle]

theorem Ddfs.promote_of_not_initializing (p : Params) {d : Ddfs} (h : d.state ≠ .initializing) :
    d.promote p = d := by
  obtain ⟨hi, -⟩ | ⟨-, he⟩ := d.promote_cases p
  · exact absurd hi h
  · exact he

/-- A cycle without an access leaves an inactive instance as it is, whatever its draws. -/
theorem Ddfs.Released.afterHost_eq {d : Ddfs} (h : d.Released) (p : Params) (lost ready : Bool) :
    d.afterHost p lost ready = d := by
  have hloss : d.lineLossPhase lost = d := by simp [Ddfs.lineLossPhase, h.not_own]
  rw [Ddfs.afterHost, hloss, h.unitPhase_eq, Ddfs.promote_of_not_initializing p h.not_initializing]

theorem Ddfs.Filling.unitPhase {p : Params} {d : Ddfs} (h : d.Filling p) (ready : Bool) :
    (d.unitPhase p ready).Filling p := by
  obtain ⟨hidle, -⟩ := d.engineRule_of_phase p
  obtain ⟨ht, -⟩ | ⟨ht, hs, he⟩ | ⟨-, -, he⟩ := d.unitPhase_cases p ready
  · simp [Ddfs.engineTearsDown, h.idle] at ht
  · have hlevel := Ddfs.push_level_bounded ht hs (d.nextCount p)
    rw [hidle h.idle] at he hlevel
    rw [he]; exact { h with level_bounded := hlevel }
  · rwa [he, hidle h.idle]

/-- The unit phase of a Running instance ends its run or keeps it Running with R39 item 4 restored. -/
theorem Ddfs.Cycling.unitPhase_released_or_cycling {p : Params} {d : Ddfs}
    (hlegal : p.legal = true) (h : d.Cycling p) (ready : Bool) :
    (d.unitPhase p ready).Released ∨
      (d.unitPhase p ready).Cycling p ∧
        ((d.unitPhase p ready).stalled = true → (d.unitPhase p ready).stopPending = false) := by
  obtain ⟨-, he⟩ | ⟨ht, hs, he⟩ | ⟨ht, -, he⟩ := d.unitPhase_cases p ready
  · rw [he]; exact .inl (d.release_released (.inl rfl))
  · have hlevel := Ddfs.push_level_bounded ht hs (d.nextCount p)
    rw [he]
    exact .inr ⟨{ h.engineRule hlegal ht with level_bounded := hlevel }, h.engineRule_not_pending⟩
  · rw [he]; exact .inr ⟨h.engineRule hlegal ht, h.engineRule_not_pending⟩

/-- The promotion restores R39 item 7: a full channel does not stay Initializing. -/
theorem Ddfs.Filling.promote_inv {p : Params} {d : Ddfs} (h : d.Filling p) : (d.promote p).Inv p := by
  obtain ⟨-, -, he⟩ | ⟨hfull, he⟩ := d.promote_cases p
  · have hcycling : Ddfs.Cycling p { d with state := .running, ePhase := .load } :=
      { h with running := rfl, counts := .of_load rfl }
    rw [he]; exact hcycling.inv fun _ => h.not_pending
  · have hlevel : d.q.length ≠ p.fifoDepth := fun hq => hfull ⟨h.initializing, hq⟩
    rw [he]; exact h.inv (Nat.lt_of_le_of_ne h.level_bounded hlevel)

/-- The phases after the host phase restore the invariant of an instance, whatever its draws. -/
theorem Ddfs.PhaseInv.afterHost_inv {p : Params} {d : Ddfs} (hlegal : p.legal = true)
    (h : d.PhaseInv p) (lost ready : Bool) : (d.afterHost p lost ready).Inv p := by
  unfold Ddfs.afterHost
  cases h.lineLossPhase lost with
  | released h =>
    rw [h.unitPhase_eq, Ddfs.promote_of_not_initializing p h.not_initializing]; exact h.inv
  | filling h => exact (h.unitPhase ready).promote_inv
  | cycling h =>
    obtain hr | ⟨hc, hpend⟩ := h.unitPhase_released_or_cycling hlegal ready
    · rw [Ddfs.promote_of_not_initializing p hr.not_initializing]; exact hr.inv
    · rw [Ddfs.promote_of_not_initializing p (by simp [hc.running])]; exact hc.inv hpend

-- ---------------------------------------------------------------- line ownership (R39 item 8)

/-- No line has two owners among the instances `l` (10_state.md R37). -/
def OneOwner (l : List Ddfs) : Prop :=
  ∀ (i j : Nat) (d e : Ddfs), i ≠ j → l[i]? = some d → l[j]? = some e →
    d.own = true → e.own = true → d.disjointFrom e

/-- `e`, where it owns lines, owns those that `d` does. -/
def Ddfs.KeepsLines (d e : Ddfs) : Prop := e.own = true → d.own = true ∧ e.pinBase = d.pinBase

theorem Ddfs.disjointFrom_symm {d e : Ddfs} (h : d.disjointFrom e) : e.disjointFrom d := Or.symm h

theorem Ddfs.disjointFrom_of_pinBase_eq {d e d' e' : Ddfs} (hd : d.pinBase = d'.pinBase)
    (he : e.pinBase = e'.pinBase) (h : d'.disjointFrom e') : d.disjointFrom e := by
  simpa only [Ddfs.disjointFrom, hd, he] using h

/-- Instances that take no line over keep the lines apart. -/
theorem OneOwner.mapFrom {l : List Ddfs} {f : Nat → Ddfs → Ddfs} (h : OneOwner l)
    (hf : ∀ i, ∀ d ∈ l, d.KeepsLines (f i d)) : OneOwner (mapFrom f 0 l) := by
  intro i j d e hij hi hj hd he
  simp only [mapFrom_getElem?, Nat.zero_add, Option.map_eq_some_iff] at hi hj
  obtain ⟨d₀, hi, rfl⟩ := hi
  obtain ⟨e₀, hj, rfl⟩ := hj
  obtain ⟨hd₀, hpd⟩ := hf i d₀ (List.mem_of_getElem? hi) hd
  obtain ⟨he₀, hpe⟩ := hf j e₀ (List.mem_of_getElem? hj) he
  exact Ddfs.disjointFrom_of_pinBase_eq hpd hpe (h i j d₀ e₀ hij hi hj hd₀ he₀)

/-- An update of one instance keeps the lines apart where that instance then shares no line. -/
theorem OneOwner.modify {l : List Ddfs} {i : Nat} {f : Ddfs → Ddfs} (h : OneOwner l)
    (hf : ∀ d, l[i]? = some d → (f d).own = true → ∀ (j : Nat) (e : Ddfs), j ≠ i →
      l[j]? = some e → e.own = true → (f d).disjointFrom e) : OneOwner (l.modify i f) := by
  have hself (x : Ddfs) (hx : (l.modify i f)[i]? = some x) : ∃ d, l[i]? = some d ∧ f d = x := by
    simpa using hx
  have hother (j : Nat) (hj : j ≠ i) : (l.modify i f)[j]? = l[j]? := by
    simp [hj.symm]
  intro a b x y hab ha hb hx hy
  by_cases hai : a = i
  · subst hai
    obtain ⟨d, hd, rfl⟩ := hself x ha
    exact hf d hd hx b y hab.symm (hother b hab.symm ▸ hb) hy
  · rw [hother a hai] at ha
    by_cases hbi : b = i
    · subst hbi
      obtain ⟨d, hd, rfl⟩ := hself y hb
      exact Ddfs.disjointFrom_symm (hf d hd hy a x hai ha hx)
    · exact h a b x y hab ha (hother b hbi ▸ hb) hx hy

theorem Ddfs.lineLossPhase_pinBase (lost : Bool) (d : Ddfs) :
    (d.lineLossPhase lost).pinBase = d.pinBase := by
  obtain ⟨-, -, he⟩ | ⟨-, he⟩ := d.lineLossPhase_cases lost
  · rw [he]; rfl
  · rw [he]

theorem Ddfs.unitPhase_pinBase (p : Params) (ready : Bool) (d : Ddfs) :
    (d.unitPhase p ready).pinBase = d.pinBase := by
  obtain ⟨-, -, -, -, -, -, -, hengine, -⟩ := d.engineRule_frame p
  obtain ⟨-, he⟩ | ⟨-, -, he⟩ | ⟨-, -, he⟩ := d.unitPhase_cases p ready
  · rw [he]; rfl
  · rw [he]; exact hengine
  · rw [he]; exact hengine

theorem Ddfs.promote_pinBase (p : Params) (d : Ddfs) : (d.promote p).pinBase = d.pinBase := by
  obtain ⟨-, -, he⟩ | ⟨-, he⟩ := d.promote_cases p <;> rw [he]

theorem Ddfs.afterHost_pinBase (p : Params) (lost ready : Bool) (d : Ddfs) :
    (d.afterHost p lost ready).pinBase = d.pinBase := by
  rw [Ddfs.afterHost, Ddfs.promote_pinBase, Ddfs.unitPhase_pinBase, Ddfs.lineLossPhase_pinBase]

/-- No phase after the host phase takes a line. -/
theorem Ddfs.PhaseInv.afterHost_keepsLines {p : Params} {d : Ddfs} (h : d.PhaseInv p)
    (lost ready : Bool) : d.KeepsLines (d.afterHost p lost ready) := by
  intro hown
  refine ⟨?_, d.afterHost_pinBase p lost ready⟩
  cases hd : d.own with
  | true => rfl
  | false => rw [(h.released_of_not_own hd).afterHost_eq, hd] at hown; exact hown

/-- The lines of a successful `START` are free: no other instance owns one (43_controller.md R203). -/
theorem Ddfs.startRun_disjointFrom {s : State} {pinBase : BitVec 5} {pat : BitVec 4} {inc : DWord}
    {d e : Ddfs} {j : Nat} (hfree : s.linesTaken pinBase.toNat = false) (hj : j ≠ s.cmdWindow)
    (he : s.insts[j]? = some e) (hown : e.own = true) :
    (d.startRun pinBase pat inc).disjointFrom e := by
  have hnot : ¬(e.pinBase.toNat ≤ pinBase.toNat + 3 ∧ pinBase.toNat ≤ e.pinBase.toNat + 3) := by
    rintro ⟨h1, h2⟩
    have htaken := State.linesTaken_iff.2 ⟨j, e, hj, he, hown, h1, h2⟩
    simp [hfree] at htaken
  simp only [Ddfs.disjointFrom, Ddfs.startRun_pinBase]
  omega

/-- A command keeps the lines of its instance, or takes lines that are free. -/
theorem CommandEffect.keepsLines_or_takes_free {s : State} {f : Ddfs → Ddfs} (hf : CommandEffect s f)
    (d : Ddfs) : d.KeepsLines (f d) ∨
      ∀ (j : Nat) (e : Ddfs), j ≠ s.cmdWindow → s.insts[j]? = some e → e.own = true →
        (f d).disjointFrom e := by
  cases hf with
  | nop => exact .inl fun h => ⟨h, rfl⟩
  | start pinBase pat =>
    obtain ⟨code, he, -⟩ | ⟨inc, -, -, hfree, -, he⟩ := d.startCommand_cases s.params
      (pinsAvailable s.params s.linesAvail pinBase.toNat) (s.linesTaken pinBase.toNat) pinBase pat
    · rw [he]; exact .inl fun h => ⟨h, rfl⟩
    · rw [he]; exact .inr fun j e => Ddfs.startRun_disjointFrom hfree
  | setFreq pr =>
    obtain ⟨-, he⟩ | ⟨inc, -, -, he⟩ := d.setFreqCommand_cases s.params pr <;>
      rw [he] <;> exact .inl fun h => ⟨h, rfl⟩
  | stop force =>
    obtain ⟨-, he⟩ | ⟨-, he⟩ | ⟨-, -, he⟩ := d.stopCommand_cases force
    · rw [he]; exact .inl fun h => ⟨h, rfl⟩
    · rw [he]; exact .inl fun h => by simp at h
    · rw [he]; exact .inl fun h => ⟨h, rfl⟩
  | clrUnderrun => exact .inl fun h => ⟨h, rfl⟩
  | illegal => exact .inl fun h => ⟨h, rfl⟩

theorem Ddfs.writeReg_keepsLines (off : Nat) (v : Word) (d : Ddfs) :
    d.KeepsLines (d.writeReg off v) := by
  unfold Ddfs.writeReg
  split <;> exact fun h => ⟨h, rfl⟩

/-- The host phase keeps the lines apart (R39 item 8). -/
theorem HostEffect.keeps_oneOwner {s : State} {i : Nat} {f : Ddfs → Ddfs} (hf : HostEffect s i f)
    (h : OneOwner s.insts) : OneOwner (s.insts.modify i f) := by
  refine h.modify fun d hd hown j e hj he hown' => ?_
  have hkeeps (hk : d.KeepsLines (f d)) : (f d).disjointFrom e := by
    obtain ⟨hown₀, hpin⟩ := hk hown
    exact Ddfs.disjointFrom_of_pinBase_eq hpin rfl (h i j d e hj.symm hd he hown₀ hown')
  cases hf with
  | nothing => exact hkeeps fun h => ⟨h, rfl⟩
  | write off v => exact hkeeps (d.writeReg_keepsLines off v)
  | command hc =>
    obtain hk | hfree := hc.keepsLines_or_takes_free d
    · exact hkeeps hk
    · exact hfree j e hj he hown'

-- ---------------------------------------------------------------- the block (O52, O53)

/-- The invariant of the block between the phases of a cycle. -/
structure State.PhaseInv (s : State) : Prop where
  is_block : s.isBlock = true
  each : ∀ d ∈ s.insts, d.PhaseInv s.params
  one_owner : OneOwner s.insts

theorem State.Inv.phaseInv {s : State} (h : s.Inv) : s.PhaseInv :=
  ⟨h.is_block, fun d hd => (h.each d hd).phaseInv, h.one_owner⟩

theorem Ddfs.reset_released : Ddfs.reset.Released :=
  { inactive := .inl rfl, not_own := rfl, idle := rfl, not_pending := rfl, not_stalled := rfl
    cleared := ⟨rfl, rfl, rfl, rfl, rfl⟩ }

/-- A block of which every instance is reset has the invariant. -/
theorem State.inv_of_insts_reset {s : State} (hlegal : s.params.legal = true)
    (hs : s.insts = List.replicate s.params.nInst Ddfs.reset) : s.Inv := by
  have hreset (d : Ddfs) (hd : d ∈ s.insts) : d = Ddfs.reset := by
    rw [hs] at hd; exact List.eq_of_mem_replicate hd
  exact
    { is_block := State.isBlock_iff.2 ⟨hlegal, by simp [hs]⟩
      each := fun d hd => hreset d hd ▸ Ddfs.reset_released.inv
      one_owner := fun i j d e _ hi _ hown _ => by
        rw [hreset d (List.mem_of_getElem? hi)] at hown; cases hown }

/-- Settles O52: every instance of the reset state is at the reset column. -/
theorem resetSatisfiesTheBlockInvariant : Obligations.ResetSatisfiesTheBlockInvariant :=
  fun _ hlegal => State.inv_of_insts_reset hlegal rfl

theorem forall_mem_modify {P : Ddfs → Prop} {l : List Ddfs} {i : Nat} {f : Ddfs → Ddfs}
    (h : ∀ d ∈ l, P d) (hf : ∀ d, P d → P (f d)) : ∀ d ∈ l.modify i f, P d := by
  intro d hd
  obtain ⟨j, hj⟩ := List.mem_iff_getElem?.1 hd
  rw [List.getElem?_modify] at hj
  obtain ⟨e, he, rfl⟩ := Option.map_eq_some_iff.1 hj
  have hP := h e (List.mem_of_getElem? he)
  split
  · exact hf e hP
  · exact hP

/-- The host phase keeps the invariant between the phases, whatever the accesses of the cycle. -/
theorem State.PhaseInv.hostPhase {s u : State} {accs : List (Nat × Nat × HostAccess)}
    (h : s.PhaseInv) (hu : s.hostPhase accs = .next u) : u.PhaseInv := by
  obtain ⟨i, f, hf, -, -, hinsts, hparams, -⟩ := State.hostPhase_effect hu
  obtain ⟨hlegal, hlen⟩ := State.isBlock_iff.1 h.is_block
  refine ⟨State.isBlock_iff.2 ?_, fun d hd => ?_, ?_⟩
  · rw [hparams, hinsts, List.length_modify]; exact ⟨hlegal, hlen⟩
  · rw [hparams]
    exact forall_mem_modify h.each (fun _ => hf.keeps_phaseInv hlegal) d (hinsts ▸ hd)
  · rw [hinsts]; exact hf.keeps_oneOwner h.one_owner

/-- The phases after the host phase restore the invariant of the block, whatever the draws. -/
theorem State.PhaseInv.unitsPhase_inv {s : State} (h : s.PhaseInv) (c : CycleInputs) :
    (s.unitsPhase c).Inv := by
  obtain ⟨hlegal, hlen⟩ := State.isBlock_iff.1 h.is_block
  refine ⟨State.isBlock_iff.2 ⟨hlegal, by simp [hlen]⟩, fun d hd => ?_, ?_⟩
  · obtain ⟨i, hi⟩ := List.mem_iff_getElem?.1 hd
    rw [State.unitsPhase_getElem?, Option.map_eq_some_iff] at hi
    obtain ⟨d₀, hi, rfl⟩ := hi
    exact (h.each d₀ (List.mem_of_getElem? hi)).afterHost_inv hlegal _ _
  · exact h.one_owner.mapFrom fun i d hd => (h.each d hd).afterHost_keepsLines _ _

/-- Settles O53: a reset cycle establishes the invariant; in any other the host phase keeps what holds
between the phases, and the phases after it restore the rest. -/
theorem everyStepKeepsTheBlockInvariant : Obligations.EveryStepKeepsTheBlockInvariant := by
  intro s t hinv hstep
  obtain ⟨hblock, ⟨-, rfl⟩ | ⟨-, u, hu, rfl⟩⟩ := step_eq_next.1 hstep
  · obtain ⟨hlegal, -⟩ := State.isBlock_iff.1 hblock
    exact State.inv_of_insts_reset hlegal rfl
  · have hsample : (s.sample s.currentInputs).PhaseInv := { hinv.phaseInv with }
    exact (hsample.hostPhase hu).unitsPhase_inv s.currentInputs

end Sys2Proof.Machine
end

section
/-! Proofs: the register window (spec/20_memory.md). First what each register reads, what a write stores
and which accesses exist, said once; then the statements of the family. -/

namespace Sys2Proof.Machine

-- ---------------------------------------------------------------- fields packed in a word

/-- The packed words are concatenations: the lower field keeps its value, the upper one is scaled. -/
theorem toNat_append_eq_add {m n : Nat} (hi : BitVec m) (lo : BitVec n) :
    (hi ++ lo).toNat = hi.toNat * 2 ^ n + lo.toNat := by
  rw [BitVec.toNat_append, ← Nat.shiftLeft_add_eq_or_of_lt lo.isLt, Nat.shiftLeft_eq]

/-- A field wide enough for a number holds it. -/
theorem toNat_ofNat_of_lt {w n : Nat} (h : n < 2 ^ w) : (BitVec.ofNat w n).toNat = n := by
  rw [BitVec.toNat_ofNat, Nat.mod_eq_of_lt h]

/-- `STATUS` as a number, for a channel whose level fits its field (R63). -/
theorem Ddfs.statusWord_toNat {d : Ddfs} (hq : d.q.length ≤ 255) :
    d.statusWord.toNat =
      d.state.code.toNat + d.stopPending.toNat * 2 ^ 2 + d.stalled.toNat * 2 ^ 3 +
      d.result.code.toNat * 2 ^ 4 + d.q.length * 2 ^ 8 + d.ph.toNat * 2 ^ 16 +
      d.own.toNat * 2 ^ 17 + d.out.toNat * 2 ^ 18 + d.ePhase.code.toNat * 2 ^ 22 := by
  have hlevel : (BitVec.ofNat 8 d.q.length).toNat = d.q.length := toNat_ofNat_of_lt (by omega)
  simp only [Ddfs.statusWord, toNat_append_eq_add, BitVec.toNat_ofBool, BitVec.toNat_zero, hlevel]
  omega

/-- `LINES` as a number, for a block of at most 32 lines (R64). -/
theorem Ddfs.linesWord_toNat {p : Params} (d : Ddfs) (hlines : p.nLines ≤ 32) :
    (d.linesWord p).toNat = d.pinBase.toNat + d.patA.toNat * 2 ^ 8 + (p.nLines - 1) * 2 ^ 16 := by
  have hlast : (BitVec.ofNat 5 (p.nLines - 1)).toNat = p.nLines - 1 :=
    toNat_ofNat_of_lt (by omega)
  simp only [Ddfs.linesWord, toNat_append_eq_add, BitVec.toNat_zero, hlast]
  omega

/-- `CONFIG` as a number, for a legal block and one of its instances (R62). -/
theorem configWord_toNat {p : Params} {i : Nat} (hlegal : p.legal = true) (hi : i < p.nInst) :
    (configWord p i).toNat =
      p.fifoDepth + p.slackCycles * 2 ^ 8 + p.loopCycles * 2 ^ 16 + (p.nInst - 1) * 2 ^ 24 +
      i * 2 ^ 28 := by
  obtain ⟨⟨-, hinst⟩, -, ⟨-, hfifo⟩, ⟨-, hloop⟩, hslack, -⟩ := Params.legal_iff.1 hlegal
  have hnumber : (BitVec.ofNat 4 i).toNat = i := toNat_ofNat_of_lt (by omega)
  have hlast : (BitVec.ofNat 4 (p.nInst - 1)).toNat = p.nInst - 1 := toNat_ofNat_of_lt (by omega)
  have hL : (BitVec.ofNat 8 p.loopCycles).toNat = p.loopCycles := toNat_ofNat_of_lt (by omega)
  have hS : (BitVec.ofNat 8 p.slackCycles).toNat = p.slackCycles := toNat_ofNat_of_lt (by omega)
  have hdepth : (BitVec.ofNat 8 p.fifoDepth).toNat = p.fifoDepth := toNat_ofNat_of_lt (by omega)
  simp only [configWord, toNat_append_eq_add, hnumber, hlast, hL, hS, hdepth]
  omega

/-- The lower half of `INC`. -/
theorem extractLow_toNat (v : DWord) : (v.extractLsb' 0 32).toNat = v.toNat % 2 ^ 32 := by
  rw [BitVec.extractLsb'_toNat, Nat.shiftRight_zero]

/-- The upper half of `INC`. -/
theorem extractHigh_toNat (v : DWord) : (v.extractLsb' 32 32).toNat = v.toNat / 2 ^ 32 := by
  rw [BitVec.extractLsb'_toNat, Nat.shiftRight_eq_div_pow]
  omega

-- ---------------------------------------------------------------- the register map (R61)

section
variable (p : Params) (i : Nat) (d : Ddfs)

@[simp] theorem Ddfs.readReg_cmd : d.readReg p i 0x00 = 0#32 := rfl
@[simp] theorem Ddfs.readReg_status : d.readReg p i 0x04 = d.statusWord := rfl
@[simp] theorem Ddfs.readReg_clkHz : d.readReg p i 0x08 = d.clkHz := rfl
@[simp] theorem Ddfs.readReg_targetLo : d.readReg p i 0x0C = d.targetLo := rfl
@[simp] theorem Ddfs.readReg_targetHi : d.readReg p i 0x10 = d.targetHi := rfl
@[simp] theorem Ddfs.readReg_underrunCnt : d.readReg p i 0x14 = d.underrunCnt := rfl
@[simp] theorem Ddfs.readReg_incLo : d.readReg p i 0x18 = d.inc.extractLsb' 0 32 := rfl
@[simp] theorem Ddfs.readReg_incHi : d.readReg p i 0x1C = d.inc.extractLsb' 32 32 := rfl
@[simp] theorem Ddfs.readReg_acc : d.readReg p i 0x20 = d.acc := rfl
@[simp] theorem Ddfs.readReg_config : d.readReg p i 0x24 = configWord p i := rfl
@[simp] theorem Ddfs.readReg_minCount : d.readReg p i 0x28 = BitVec.ofNat 32 p.minCount := rfl
@[simp] theorem Ddfs.readReg_lines : d.readReg p i 0x2C = d.linesWord p := rfl
@[simp] theorem Ddfs.readReg_clkAct : d.readReg p i 0x30 = d.clkAct := rfl
@[simp] theorem Ddfs.readReg_x : d.readReg p i 0x34 = d.x := rfl
@[simp] theorem Ddfs.readReg_reserved38 : d.readReg p i 0x38 = 0#32 := rfl
@[simp] theorem Ddfs.readReg_reserved3C : d.readReg p i 0x3C = 0#32 := rfl

end

@[simp] theorem Ddfs.writeReg_clkHz (v : Word) (d : Ddfs) :
    d.writeReg 0x08 v = { d with clkHz := v } := rfl

@[simp] theorem Ddfs.writeReg_targetLo (v : Word) (d : Ddfs) :
    d.writeReg 0x0C v = { d with targetLo := v } := rfl

@[simp] theorem Ddfs.writeReg_targetHi (v : Word) (d : Ddfs) :
    d.writeReg 0x10 v = { d with targetHi := v } := rfl

/-- Only the three RW registers store what is written (R65). -/
theorem Ddfs.writeReg_of_not_rw {off : Nat} (hclk : off ≠ 0x08) (hlo : off ≠ 0x0C) (hhi : off ≠ 0x10)
    (v : Word) (d : Ddfs) : d.writeReg off v = d := by
  unfold Ddfs.writeReg
  split
  · exact absurd rfl hclk
  · exact absurd rfl hlo
  · exact absurd rfl hhi
  · rfl

-- ---------------------------------------------------------------- the accesses that exist (R66)

theorem accessExists_iff {width off : Nat} :
    accessExists width off = true ↔ width = 4 ∧ off % 4 = 0 := by
  simp [accessExists]

theorem accessExists_eq_false {width off : Nat} (h : width ≠ 4 ∨ off % 4 ≠ 0) :
    accessExists width off = false := by
  rw [Bool.eq_false_iff, ne_eq, accessExists_iff]
  omega

theorem State.hostAccess_read {a : HostAccess} (hkind : a.kind = .read) (i off : Nat) (s : State) :
    s.hostAccess i off a = .next { s with readData := some (s.hostRead i off a.width) } := by
  simp only [State.hostAccess, hkind]

theorem State.hostAccess_write {a : HostAccess} {v : Word} (hkind : a.kind = .write v) (i off : Nat)
    (s : State) : s.hostAccess i off a = s.hostWrite i off a.width v := by
  simp only [State.hostAccess, hkind]

theorem State.hostRead_of_not_exists {width off : Nat} (h : accessExists width off = false) (i : Nat)
    (s : State) : s.hostRead i off width = 0#32 := by
  simp [State.hostRead, h]

theorem State.hostWrite_of_not_exists {width off : Nat} (h : accessExists width off = false) (i : Nat)
    (v : Word) (s : State) : s.hostWrite i off width v = .next s := by
  simp [State.hostWrite, h]

theorem State.hostRead_of_exists {s : State} {i width off : Nat} {d : Ddfs}
    (h : accessExists width off = true) (hd : s.insts[i]? = some d) :
    s.hostRead i off width = d.readReg s.params i off := by
  simp [State.hostRead, h, hd]

/-- A write that is no command changes its instance alone. -/
theorem State.hostWrite_of_exists {s : State} {i width off : Nat} {d : Ddfs}
    (h : accessExists width off = true) (hcmd : off ≠ 0x00) (hd : s.insts[i]? = some d) (v : Word) :
    s.hostWrite i off width v = .next { s with insts := s.insts.set i (d.writeReg off v) } := by
  have hset : s.insts.modify i (Ddfs.writeReg off v) = s.insts.set i (d.writeReg off v) := by
    rw [List.modify_eq_set_getElem?, hd]; rfl
  simp [State.hostWrite, State.modifyInst, h, hcmd, hset]

-- ---------------------------------------------------------------- the windows (R60)

theorem selectWindow_window {p : Params} {i off : Nat} (hi : i < p.nInst) (hoff : off < 0x40) :
    selectWindow p (.window i off) = some (i, off) :=
  if_pos ⟨hi, hoff⟩

/-- The platform address of a byte of a window selects that window and that byte. -/
theorem selectWindow_windowAddress {p : Params} {i off : Nat} (hi : i < p.nInst)
    (hoff : off < 0x40) : selectWindow p (.platform (windowAddress i off)) = some (i, off) := by
  have hinside : Config.blockBase ≤ windowAddress i off ∧
      windowAddress i off < Config.blockBase + 0x40 * p.nInst := by
    unfold windowAddress; omega
  have hbyte : windowAddress i off - Config.blockBase = 0x40 * i + off := by
    unfold windowAddress; omega
  have hwindow : (0x40 * i + off) / 0x40 = i := by omega
  have hoffset : (0x40 * i + off) % 0x40 = off := by omega
  rw [selectWindow, if_pos hinside, hbyte, hwindow, hoffset]

-- ---------------------------------------------------------------- the statements

/-- Settles O19: the codes are those of R63, and the fields of `STATUS` are adjacent in one word. -/
theorem statusWordLayout : Obligations.StatusWordLayout := by
  refine ⟨⟨rfl, rfl, rfl, rfl⟩, ⟨rfl, rfl, rfl, rfl⟩, ⟨rfl, rfl, rfl, rfl, rfl⟩, fun p i d hq => ?_⟩
  refine ⟨?_, fun v => Ddfs.writeReg_of_not_rw (by decide) (by decide) (by decide) v d⟩
  rw [Ddfs.readReg_status, Ddfs.statusWord_toNat hq]

/-- Settles O20: the last line's number fits the five bits of its field. -/
theorem linesWordLayout : Obligations.LinesWordLayout := by
  intro p i d hlegal
  obtain ⟨-, ⟨-, hlines⟩, -⟩ := Params.legal_iff.1 hlegal
  refine ⟨?_, fun v => Ddfs.writeReg_of_not_rw (by decide) (by decide) (by decide) v d⟩
  rw [Ddfs.readReg_lines, d.linesWord_toNat hlines]

/-- Settles O21: legal parameters fit their fields, and neither register is an RW one. -/
theorem constantRegisters : Obligations.ConstantRegisters := by
  intro p i d hlegal hi
  obtain ⟨-, -, -, -, -, hmin⟩ := Params.legal_iff.1 hlegal
  refine ⟨?_, ?_, fun v => ⟨?_, ?_⟩⟩
  · rw [Ddfs.readReg_config, configWord_toNat hlegal hi]
  · rw [Ddfs.readReg_minCount, toNat_ofNat_of_lt (by omega)]
  · exact Ddfs.writeReg_of_not_rw (by decide) (by decide) (by decide) v d
  · exact Ddfs.writeReg_of_not_rw (by decide) (by decide) (by decide) v d

/-- Settles O22: the read returns `readReg`, and the register map says what that is at each offset. -/
theorem readsReturnTheirRegister : Obligations.ReadsReturnTheirRegister := by
  intro s i off d address hd halign
  have hread : s.hostRead i off 4 = d.readReg s.params i off :=
    State.hostRead_of_exists (accessExists_iff.2 ⟨rfl, halign⟩) hd
  refine ⟨_, State.hostAccess_read rfl i off s, hread, ?_⟩
  rw [hread]
  refine ⟨?status, ?config, ?minCount, ?lines, ?cmd, ?clkHz, ?targetLo, ?targetHi, ?underrunCnt,
    ?incLo, ?incHi, ?acc, ?clkAct, ?x, ?reserved38, ?reserved3C⟩ <;> rintro rfl
  case incLo => rw [Ddfs.readReg_incLo, extractLow_toNat]
  case incHi => rw [Ddfs.readReg_incHi, extractHigh_toNat]
  all_goals simp

/-- Settles O23: a write that exists and is no command stores as the register map says. -/
theorem writesStoreOnlyTheRwRegisters : Obligations.WritesStoreOnlyTheRwRegisters := by
  intro s i off d v hd halign hcmd e
  have hstore : d.writeReg off v = e := by
    unfold e
    split_ifs with hclk hlo hhi
    · rw [hclk, Ddfs.writeReg_clkHz]
    · rw [hlo, Ddfs.writeReg_targetLo]
    · rw [hhi, Ddfs.writeReg_targetHi]
    · exact Ddfs.writeReg_of_not_rw hclk hlo hhi v d
  rw [State.hostWrite_of_exists (accessExists_iff.2 ⟨rfl, halign⟩) hcmd hd, hstore]

/-- Settles O25: `BLOCK_BASE` is 64 times a free value, and the windows follow it without a gap. -/
theorem windowsStandAtTheirPlatformAddresses : Obligations.WindowsStandAtTheirPlatformAddresses :=
  ⟨Nat.mul_mod_right 64 Config.blockBaseUnits,
    fun _ _ _ hi hoff => ⟨selectWindow_windowAddress hi hoff, selectWindow_window hi hoff⟩⟩

/-- Settles O24: an access of another width or alignment does not exist for a read or a write. -/
theorem onlyAlignedWordAccessesExist : Obligations.OnlyAlignedWordAccessesExist := by
  intro s i off a hbad
  have hnone := accessExists_eq_false hbad
  refine ⟨fun v hkind => ?_, fun hkind => ?_⟩
  · rw [State.hostAccess_write hkind, State.hostWrite_of_not_exists hnone]
  · rw [State.hostAccess_read hkind, State.hostRead_of_not_exists hnone]

end Sys2Proof.Machine
end

section
/-! Proofs: the encoding (spec/30_encoding.md R90 to R104). A row of the opcode table fixes the opcode
and the reserved bits of its format; the other bits are the operand fields, so a word of a row is the
word of one instruction. `decode` is described by rows: what it answers for a word some row accepts,
and for a word none does. -/

namespace Sys2Proof

-- ---------------------------------------------------------------- fields of a word

/-- A concatenation determines both its parts. -/
theorem append_inj_iff {m n : Nat} {x y : BitVec m} {u v : BitVec n} :
    x ++ u = y ++ v ↔ x = y ∧ u = v := by
  refine ⟨fun h => ?_, fun ⟨hx, hu⟩ => by rw [hx, hu]⟩
  have hlow : u = v := by
    simpa only [BitVec.setWidth_append_eq_right] using congrArg (BitVec.setWidth n) h
  subst hlow
  exact ⟨(BitVec.append_left_inj u).1 h, rfl⟩

/-- Where the mask is all ones, the masked word has the word's own bits. -/
theorem extractLsb'_eq_of_and_eq {w m p : Word} {start len : Nat} (h : w &&& m = p)
    (hm : m.extractLsb' start len = BitVec.allOnes len) :
    w.extractLsb' start len = p.extractLsb' start len := by
  rw [← h, BitVec.extractLsb'_and, hm, BitVec.and_allOnes]

/-- `OPC` as a number (R90). -/
theorem Word.opcode_toNat (w : Word) : w.opcode.toNat = w.toNat % 16 := by
  rw [Word.opcode, BitVec.extractLsb'_toNat, Nat.shiftRight_zero]

/-- A word is its opcode below the other 28 bits (R90). -/
theorem Word.append_opcode (w : Word) : w.extractLsb' 4 28 ++ w.opcode = w :=
  BitVec.extractLsb'_append_extractLsb' (w := 28) (len := 4)

/-- A mask acts on the opcode and on the other 28 bits apart. -/
theorem Word.and_append (w : Word) (r : BitVec 28) (m : BitVec 4) :
    w &&& (r ++ m : Word) = ((w.extractLsb' 4 28 &&& r) ++ (w.opcode &&& m) : Word) := by
  rw [← BitVec.and_append, w.append_opcode]

/-- The flag of `SET_FREQ` and `STOP` as the field it is encoded in (R97). -/
theorem Word.ofBool_bit4 (w : Word) : BitVec.ofBool w.bit4 = w.extractLsb' 4 1 := by
  rw [Word.bit4, BitVec.getLsbD_eq_extractLsb']
  obtain h | h := BitVec.eq_zero_or_eq_one (w.extractLsb' 4 1) <;> rw [h] <;> rfl

/-- A word of the format of `START`, put together from its fields (R93). -/
theorem Word.append_startFields {w : Word} {opc : BitVec 4} (hopc : w.opcode = opc)
    (hreserved : w &&& 0xFFFF0E00#32 = 0#32) :
    0#16 ++ w.patField ++ 0#3 ++ w.pinBaseField ++ opc = w := by
  have hhigh : w.extractLsb' 16 16 = 0#16 := extractLsb'_eq_of_and_eq hreserved rfl
  have hmiddle : w.extractLsb' 9 3 = 0#3 := extractLsb'_eq_of_and_eq hreserved rfl
  rw [← hhigh, ← hmiddle, ← hopc]
  unfold Word.patField Word.pinBaseField Word.opcode
  rw [BitVec.extractLsb'_append_extractLsb'_eq_extractLsb' (by rfl),
    BitVec.extractLsb'_append_extractLsb'_eq_extractLsb' (by rfl),
    BitVec.extractLsb'_append_extractLsb'_eq_extractLsb' (by rfl),
    BitVec.extractLsb'_append_extractLsb'_eq_extractLsb' (by rfl), BitVec.extractLsb'_eq_self]

/-- A word of the format of `SET_FREQ` and `STOP`, put together from its fields (R94, R95). -/
theorem Word.append_flagFields {w : Word} {opc : BitVec 4} (hopc : w.opcode = opc)
    (hreserved : w &&& 0xFFFFFFE0#32 = 0#32) : 0#27 ++ BitVec.ofBool w.bit4 ++ opc = w := by
  have hhigh : w.extractLsb' 5 27 = 0#27 := extractLsb'_eq_of_and_eq hreserved rfl
  rw [← hhigh, ← hopc, w.ofBool_bit4, Word.opcode,
    BitVec.extractLsb'_append_extractLsb'_eq_extractLsb' (by rfl),
    BitVec.extractLsb'_append_extractLsb'_eq_extractLsb' (by rfl), BitVec.extractLsb'_eq_self]

-- ---------------------------------------------------------------- rows of the opcode table

theorem OpcodeRow.accepts_iff {r : OpcodeRow} {w : Word} :
    r.accepts w = true ↔ w &&& r.mask = r.pattern := by
  simp only [OpcodeRow.accepts, beq_iff_eq]

/-- Every row of the table is the row of an instruction. -/
theorem exists_row_eq {r : OpcodeRow} (hr : r ∈ opcodeTable) : ∃ i : Instr, i.row = r := by
  simp only [opcodeTable, List.mem_cons, List.not_mem_nil, or_false] at hr
  obtain rfl | rfl | rfl | rfl | rfl := hr
  · exact ⟨.nop, rfl⟩
  · exact ⟨.start 0#5 0#4, rfl⟩
  · exact ⟨.setFreq false, rfl⟩
  · exact ⟨.stop false, rfl⟩
  · exact ⟨.clrUnderrun, rfl⟩

/-- Every row fixes the whole opcode (R92 to R96). -/
theorem opcode_of_accepts {r : OpcodeRow} {w : Word} (hr : r ∈ opcodeTable)
    (h : r.accepts w = true) : w.opcode = r.pattern.opcode := by
  have hmask : ∀ r ∈ opcodeTable, r.mask.extractLsb' 0 4 = BitVec.allOnes 4 := by decide
  exact extractLsb'_eq_of_and_eq (OpcodeRow.accepts_iff.1 h) (hmask r hr)

/-- A word of a row has no reserved opcode (R91). -/
theorem opcode_lt_of_accepts {r : OpcodeRow} {w : Word} (hr : r ∈ opcodeTable)
    (h : r.accepts w = true) : w.opcode.toNat < 5 := by
  have hpattern : ∀ r ∈ opcodeTable, r.pattern.opcode.toNat < 5 := by decide
  rw [opcode_of_accepts hr h]
  exact hpattern r hr

/-- The test of a row, taken apart as the decoder does: the opcode, then the reserved bits `r`. -/
theorem and_mask_eq_iff (w : Word) (r : BitVec 28) (opc : BitVec 4) :
    w &&& (r ++ 0xF#4 : Word) = (0#28 ++ opc : Word) ↔
      w.opcode = opc ∧ w &&& (r ++ 0#4 : Word) = (0#28 ++ 0#4 : Word) := by
  have hones : w.opcode &&& 0xF#4 = w.opcode := BitVec.and_allOnes
  rw [w.and_append, w.and_append, hones, BitVec.and_zero, append_inj_iff, append_inj_iff,
    and_iff_left rfl, and_comm]

/-! The rows one by one, each as the test by which the decoder knows its words. -/

theorem accepts_nop_iff {w : Word} : Instr.nop.row.accepts w = true ↔ w = 0x00000000#32 := by
  rw [OpcodeRow.accepts_iff]
  exact Eq.congr_left (BitVec.and_allOnes (x := w))

theorem accepts_start_iff {w : Word} {pinBase : BitVec 5} {pat : BitVec 4} :
    (Instr.start pinBase pat).row.accepts w = true ↔
      w.opcode = 0x1#4 ∧ w &&& 0xFFFF0E00#32 = 0#32 :=
  OpcodeRow.accepts_iff.trans (and_mask_eq_iff w 0xFFFF0E0#28 0x1#4)

theorem accepts_setFreq_iff {w : Word} {pr : Bool} :
    (Instr.setFreq pr).row.accepts w = true ↔ w.opcode = 0x2#4 ∧ w &&& 0xFFFFFFE0#32 = 0#32 :=
  OpcodeRow.accepts_iff.trans (and_mask_eq_iff w 0xFFFFFFE#28 0x2#4)

theorem accepts_stop_iff {w : Word} {force : Bool} :
    (Instr.stop force).row.accepts w = true ↔ w.opcode = 0x3#4 ∧ w &&& 0xFFFFFFE0#32 = 0#32 :=
  OpcodeRow.accepts_iff.trans (and_mask_eq_iff w 0xFFFFFFE#28 0x3#4)

theorem accepts_clrUnderrun_iff {w : Word} :
    Instr.clrUnderrun.row.accepts w = true ↔ w = 0x00000004#32 := by
  rw [OpcodeRow.accepts_iff]
  exact Eq.congr_left (BitVec.and_allOnes (x := w))

-- ---------------------------------------------------------------- the instruction of a row's word

/-- The instruction of the same row with the operands that the fields of `w` hold (R97). -/
def Instr.withFieldsOf (w : Word) : Instr → Instr
  | .nop => .nop
  | .start _ _ => .start w.pinBaseField w.patField
  | .setFreq _ => .setFreq w.bit4
  | .stop _ => .stop w.bit4
  | .clrUnderrun => .clrUnderrun

/-- The word of an instruction is one of its row's (R92 to R96). -/
theorem accepts_encode (i : Instr) : i.row.accepts (encode i) = true := by
  rw [OpcodeRow.accepts_iff]
  cases i with
  | nop => exact Laws.FixedBits.nop
  | start pinBase pat => exact Laws.FixedBits.start pinBase pat
  | setFreq pr => exact Laws.FixedBits.setFreq pr
  | stop force => exact Laws.FixedBits.stop force
  | clrUnderrun => exact Laws.FixedBits.clrUnderrun

/-- A row and the operand fields leave no bit of the word open. -/
theorem encode_withFieldsOf {w : Word} {i : Instr} (h : i.row.accepts w = true) :
    encode (i.withFieldsOf w) = w := by
  cases i with
  | nop => exact (accepts_nop_iff.1 h).symm
  | start pinBase pat =>
    obtain ⟨hopc, hreserved⟩ := accepts_start_iff.1 h
    exact Word.append_startFields hopc hreserved
  | setFreq pr =>
    obtain ⟨hopc, hreserved⟩ := accepts_setFreq_iff.1 h
    exact Word.append_flagFields hopc hreserved
  | stop force =>
    obtain ⟨hopc, hreserved⟩ := accepts_stop_iff.1 h
    exact Word.append_flagFields hopc hreserved
  | clrUnderrun => exact (accepts_clrUnderrun_iff.1 h).symm

/-- Two `START` words are equal only with equal operands. -/
theorem encode_start_inj {pinBase pinBase' : BitVec 5} {pat pat' : BitVec 4}
    (h : encode (.start pinBase pat) = encode (.start pinBase' pat')) :
    pinBase = pinBase' ∧ pat = pat' := by
  have hfields : 0#16 ++ pat ++ 0#3 ++ pinBase ++ 0x1#4 =
    0#16 ++ pat' ++ 0#3 ++ pinBase' ++ 0x1#4 := h
  simp only [append_inj_iff] at hfields
  obtain ⟨⟨⟨⟨-, hpat⟩, -⟩, hpin⟩, -⟩ := hfields
  exact ⟨hpin, hpat⟩

/-- The word of an instruction holds its operands (R97). -/
theorem withFieldsOf_encode (i : Instr) : i.withFieldsOf (encode i) = i := by
  cases i with
  | nop => rfl
  | start pinBase pat =>
    have haccepts := accepts_encode (.start pinBase pat)
    obtain ⟨hpin, hpat⟩ := encode_start_inj (encode_withFieldsOf haccepts)
    rw [Instr.withFieldsOf, hpin, hpat]
  | setFreq pr => cases pr <;> rfl
  | stop force => cases force <;> rfl
  | clrUnderrun => rfl

-- ---------------------------------------------------------------- what the decoder answers

/-- The decoder reads a word of a row as the instruction of that row with the word's fields. -/
theorem decode_of_accepts {w : Word} {i : Instr} (h : i.row.accepts w = true) :
    decode w = .ok (i.withFieldsOf w) := by
  have hzero {opc : BitVec 4} (hopc : w.opcode = opc) (hnz : 0x0#4 ≠ opc) :
      w ≠ 0x00000000#32 := by
    rintro rfl
    exact hnz hopc
  cases i with
  | nop => rw [accepts_nop_iff.1 h]; rfl
  | start pinBase pat =>
    obtain ⟨hopc, hreserved⟩ := accepts_start_iff.1 h
    have hne := hzero hopc (by decide)
    simp [decode, Instr.withFieldsOf, hne, hopc, hreserved]
  | setFreq pr =>
    obtain ⟨hopc, hreserved⟩ := accepts_setFreq_iff.1 h
    have hne := hzero hopc (by decide)
    simp [decode, Instr.withFieldsOf, hne, hopc, hreserved]
  | stop force =>
    obtain ⟨hopc, hreserved⟩ := accepts_stop_iff.1 h
    have hne := hzero hopc (by decide)
    simp [decode, Instr.withFieldsOf, hne, hopc, hreserved]
  | clrUnderrun => rw [accepts_clrUnderrun_iff.1 h]; rfl

/-- A word of no row is rejected, for its opcode where that is a reserved one (R91, R98). -/
theorem decode_of_not_accepts {w : Word} (h : ∀ r ∈ opcodeTable, r.accepts w = false) :
    decode w = .error (if 5 ≤ w.opcode.toNat then .reservedOpcode else .reservedBits) := by
  have hrow (i : Instr) : ¬ i.row.accepts w = true := by simp [h i.row i.row_mem]
  unfold decode
  rw [if_neg (accepts_nop_iff.not.1 (hrow .nop)),
    if_neg (accepts_start_iff.not.1 (hrow (.start 0#5 0#4))),
    if_neg (accepts_setFreq_iff.not.1 (hrow (.setFreq false))),
    if_neg (accepts_stop_iff.not.1 (hrow (.stop false))),
    if_neg (accepts_clrUnderrun_iff.not.1 (hrow .clrUnderrun)), apply_ite Except.error]

/-- The two answers of the decoder: a word is read by the row of an instruction, or no row has it. -/
theorem decode_cases (w : Word) :
    (∃ i : Instr, i.row.accepts w = true ∧ decode w = .ok (i.withFieldsOf w)) ∨
    ((∀ r ∈ opcodeTable, r.accepts w = false) ∧
      decode w = .error (if 5 ≤ w.opcode.toNat then .reservedOpcode else .reservedBits)) := by
  by_cases h : ∃ r ∈ opcodeTable, r.accepts w = true
  · obtain ⟨r, hr, haccepts⟩ := h
    obtain ⟨i, rfl⟩ := exists_row_eq hr
    exact .inl ⟨i, haccepts, decode_of_accepts haccepts⟩
  · have hnone : ∀ r ∈ opcodeTable, r.accepts w = false := by simpa using h
    exact .inr ⟨hnone, decode_of_not_accepts hnone⟩

/-- A word that decodes is the word of what it decodes to (R98). -/
theorem eq_encode_of_decode {w : Word} {i : Instr} (h : decode w = .ok i) : w = encode i := by
  obtain ⟨j, haccepts, hdecode⟩ | ⟨-, hdecode⟩ := decode_cases w
  · obtain rfl : j.withFieldsOf w = i := Except.ok.inj (hdecode.symm.trans h)
    exact (encode_withFieldsOf haccepts).symm
  · simp [hdecode] at h

/-- A word that decodes is one of the instruction's row. -/
theorem accepts_of_decode {w : Word} {i : Instr} (h : decode w = .ok i) :
    i.row.accepts w = true := by
  rw [eq_encode_of_decode h]
  exact accepts_encode i

/-- An instruction's word decodes to the instruction (R98). -/
theorem decode_encode (i : Instr) : decode (encode i) = .ok i := by
  rw [decode_of_accepts (accepts_encode i), withFieldsOf_encode]

-- ---------------------------------------------------------------- the statements

/-- Settles O1: a row and the operand fields determine the word, and the word determines both. -/
theorem decodeAcceptsExactlyTheEncodings : Obligations.DecodeAcceptsExactlyTheEncodings := by
  intro w i
  refine ⟨eq_encode_of_decode, ?_⟩
  rintro rfl
  exact decode_encode i

/-- Settles O2: a row's word decodes in that row, and no two rows have one opcode. -/
theorem decodeAgreesWithOpcodeTable : Obligations.DecodeAgreesWithOpcodeTable := by
  refine ⟨fun w => ⟨?_, ?_⟩, fun _ _ => accepts_of_decode, ?_⟩
  · rintro ⟨i, h⟩
    exact ⟨i.row, i.row_mem, accepts_of_decode h⟩
  · rintro ⟨r, hr, haccepts⟩
    obtain ⟨i, rfl⟩ := exists_row_eq hr
    exact ⟨i.withFieldsOf w, decode_of_accepts haccepts⟩
  · have hopcodes : opcodeTable.Pairwise fun r r' => r.pattern.opcode ≠ r'.pattern.opcode := by
      decide
    refine hopcodes.imp_of_mem fun hr hr' hne w ⟨haccepts, haccepts'⟩ => hne ?_
    rw [← opcode_of_accepts hr haccepts, opcode_of_accepts hr' haccepts']

/-- Settles O3: a word of a row has an opcode below 5 and decodes, and any other is rejected by its
opcode. -/
theorem illegalWordsAreRejectedByName : Obligations.IllegalWordsAreRejectedByName := by
  intro w
  rw [← w.opcode_toNat]
  obtain ⟨i, haccepts, hdecode⟩ | ⟨hnone, hdecode⟩ := decode_cases w
  · have hlt := opcode_lt_of_accepts i.row_mem haccepts
    have hrow : ¬ ∀ r ∈ opcodeTable, r.accepts w = false := fun hnone => by
      simp [hnone i.row i.row_mem] at haccepts
    simp [hdecode, hlt, hrow]
  · rw [hdecode]
    split_ifs with hreserved
    · simp [hreserved]
    · simpa [hreserved] using ⟨by omega, hnone⟩

/-- Settles O4: each of the twelve words of R104 evaluates as listed. -/
theorem decodeOfTheSpecsExampleWords : Obligations.DecodeOfTheSpecsExampleWords := by
  unfold Obligations.DecodeOfTheSpecsExampleWords
  decide

end Sys2Proof
end

section
/-! Proofs: the engine (spec/40_engine.md R120 to R128). First what each phase does on each of its
branches and what a cycle keeps of the engine's rule, said once; then the statements of the family. -/

namespace Sys2Proof.Machine

-- ---------------------------------------------------------------- the branches of the phases

theorem Ddfs.loadPhase_of_pending {d : Ddfs} (hpend : d.stopPending = true) :
    d.loadPhase = { d with stalled := false, ePhase := .drive } := by
  simp [Ddfs.loadPhase, hpend]

theorem Ddfs.loadPhase_of_cons {d : Ddfs} {c : Word} {rest : List Word} (hpend : d.stopPending = false)
    (hq : d.q = c :: rest) :
    d.loadPhase = { d with x := c, q := rest, stalled := false, ePhase := .drive } := by
  simp [Ddfs.loadPhase, hpend, hq]

theorem Ddfs.loadPhase_of_nil {d : Ddfs} (hpend : d.stopPending = false) (hq : d.q = []) :
    d.loadPhase = d.stall := by
  simp [Ddfs.loadPhase, hpend, hq]

/-- A stall writes `STALLED` and the counter of the episodes alone (40_engine.md R121). -/
theorem Ddfs.stall_eq (d : Ddfs) :
    d.stall = { d with
      stalled := true
      underrunCnt := if d.stalled then d.underrunCnt else satIncrement d.underrunCnt } := by
  obtain ⟨hs, he⟩ | ⟨hs, he⟩ := d.stall_cases
  · rw [he, hs, if_pos rfl, ← hs]
  · rw [he, hs, if_neg Bool.false_ne_true]

theorem satIncrement_toNat (v : Word) : (satIncrement v).toNat = min (v.toNat + 1) (2 ^ 32 - 1) := by
  rw [satIncrement, BitVec.toNat_ofNat]; omega

theorem Ddfs.drivePhase_of_pending {d : Ddfs} (p : Params) (hpend : d.stopPending = true) :
    d.drivePhase p = d.teardown := if_pos hpend

theorem Ddfs.drivePhase_of_not_pending {d : Ddfs} (p : Params) (hpend : d.stopPending = false) :
    d.drivePhase p = d.driveEdge p := by
  simp [Ddfs.drivePhase, hpend]

theorem Ddfs.delayCycles_eq_zero_iff {p : Params} (hlegal : p.legal = true) (d : Ddfs) :
    d.delayCycles p = 0 ↔ d.x = 0#32 := by
  obtain ⟨-, -, -, ⟨hL, -⟩, -, -⟩ := Params.legal_iff.1 hlegal
  have hL0 : p.loopCycles ≠ 0 := by omega
  simp [Ddfs.delayCycles, hL0, ← BitVec.toNat_inj]

/-- The edge itself, and what it leaves (40_engine.md R122). -/
theorem Ddfs.driveEdge_writes (p : Params) (d : Ddfs) :
    (d.driveEdge p).out = d.pattern ∧ (d.driveEdge p).ph = !d.ph ∧
    (d.driveEdge p).dcnt = BitVec.ofNat 40 (d.delayCycles p) ∧ (d.driveEdge p).x = d.x ∧
    (d.driveEdge p).q = d.q ∧ (d.driveEdge p).state = d.state ∧
    (d.driveEdge p).stopPending = d.stopPending := by
  obtain ⟨-, he⟩ | ⟨h0, -, he⟩ | ⟨h0, -, he⟩ := d.driveEdge_cases p
  · simp [he]
  · simp [he, h0]
  · simp [he, h0]

-- ---------------------------------------------------------------- what a cycle keeps of the rule

/-- The counting phases write the phase and the counters alone (40_engine.md R123, R124). -/
theorem Ddfs.engineRule_of_counting (p : Params) {d : Ddfs}
    (hp : d.ePhase = .delay ∨ d.ePhase = .slack) :
    ∃ phase dcnt scnt, d.engineRule p = { d with ePhase := phase, dcnt := dcnt, scnt := scnt } := by
  obtain ⟨-, -, -, hdelay, hslack⟩ := d.engineRule_of_phase p
  obtain hp | hp := hp
  · rw [hdelay hp]
    obtain ⟨-, -, he⟩ | ⟨-, -, he⟩ | ⟨-, he⟩ := d.delayPhase_cases p
    · exact ⟨_, _, _, he⟩
    · exact ⟨_, _, _, he⟩
    · exact ⟨_, _, _, he⟩
  · exact ⟨_, _, _, hslack hp⟩

/-- Only `DRIVE` writes `OUT`, `OWN`, `PH` or `STATE` (40_engine.md R128). -/
theorem Ddfs.engineRule_of_not_drive (p : Params) {d : Ddfs} (hp : d.ePhase ≠ .drive) :
    (d.engineRule p).out = d.out ∧ (d.engineRule p).own = d.own ∧ (d.engineRule p).ph = d.ph ∧
    (d.engineRule p).state = d.state := by
  obtain ⟨hidle, hload, -⟩ := d.engineRule_of_phase p
  cases hphase : d.ePhase with
  | idle => simp [hidle hphase]
  | load =>
    rw [hload hphase]
    obtain ⟨-, he⟩ | ⟨c, rest, -, -, he⟩ | ⟨-, -, he⟩ := d.loadPhase_cases
    · simp [he]
    · simp [he]
    · simp [he, d.stall_eq]
  | drive => exact absurd hphase hp
  | delay =>
    obtain ⟨_, _, _, he⟩ := d.engineRule_of_counting p (.inl hphase)
    simp [he]
  | slack =>
    obtain ⟨_, _, _, he⟩ := d.engineRule_of_counting p (.inr hphase)
    simp [he]

theorem Ddfs.engineTearsDown_of_not_drive {d : Ddfs} (hp : d.ePhase ≠ .drive) :
    d.engineTearsDown = false := by
  simp [Ddfs.engineTearsDown, hp]

theorem Ddfs.engineTearsDown_of_not_pending {d : Ddfs} (hpend : d.stopPending = false) :
    d.engineTearsDown = false := by
  simp [Ddfs.engineTearsDown, hpend]

/-- Beside the engine's rule, the unit phase writes the scheduler's remainder and the channel alone
(44_cycle.md R243). -/
theorem Ddfs.unitPhase_eq_engineRule (p : Params) (ready : Bool) {d : Ddfs}
    (ht : d.engineTearsDown = false) :
    ∃ acc q, d.unitPhase p ready = { d.engineRule p with acc := acc, q := q } := by
  obtain ⟨ht', -⟩ | ⟨-, -, he⟩ | ⟨-, -, he⟩ := d.unitPhase_cases p ready
  · simp [ht] at ht'
  · exact ⟨_, _, he⟩
  · exact ⟨_, _, he⟩

theorem Ddfs.afterHost_not_lost (p : Params) (ready : Bool) (d : Ddfs) :
    d.afterHost p false ready = (d.unitPhase p ready).promote p := rfl

/-- The promotion writes `STATE` and the phase alone (44_cycle.md R244). -/
theorem Ddfs.promote_lines (p : Params) (d : Ddfs) :
    (d.promote p).out = d.out ∧ (d.promote p).own = d.own ∧ (d.promote p).ph = d.ph := by
  obtain ⟨-, -, he⟩ | ⟨-, he⟩ := d.promote_cases p
  · simp [he]
  · simp [he]

theorem Ddfs.engineRule_state (p : Params) {d : Ddfs} (ht : d.engineTearsDown = false) :
    (d.engineRule p).state = d.state := by
  by_cases hp : d.ePhase = .drive
  · have hpend : d.stopPending = false := by simpa [Ddfs.engineTearsDown, hp] using ht
    obtain ⟨-, -, hdrive, -⟩ := d.engineRule_of_phase p
    obtain ⟨-, -, -, -, -, hstate, -⟩ := d.driveEdge_writes p
    rw [hdrive hp, Ddfs.drivePhase_of_not_pending p hpend, hstate]
  · obtain ⟨-, -, -, hstate⟩ := Ddfs.engineRule_of_not_drive p hp
    exact hstate

/-- A cycle of a Running instance without an access, line loss or teardown is the engine's rule, with the
scheduler's remainder and the channel beside it. -/
theorem Ddfs.afterHost_of_running (p : Params) (ready : Bool) {d : Ddfs} (hrun : d.state = .running)
    (ht : d.engineTearsDown = false) :
    ∃ acc q, d.afterHost p false ready = { d.engineRule p with acc := acc, q := q } := by
  obtain ⟨acc, q, he⟩ := d.unitPhase_eq_engineRule p ready ht
  have hstate : (d.engineRule p).state = .running := by rw [Ddfs.engineRule_state p ht, hrun]
  refine ⟨acc, q, ?_⟩
  rw [Ddfs.afterHost_not_lost, he, Ddfs.promote_of_not_initializing]
  simp [hstate]

-- ---------------------------------------------------------------- the transitions (O39 to O42)

/-- Settles O39: the rule of the phase, on the branch that the clause's conditions select. -/
theorem engineTransitions : Obligations.EngineTransitions := by
  intro p d hlegal
  obtain ⟨hidle, hload, hdrive, hdelay, hslack⟩ := d.engineRule_of_phase p
  have hx := d.delayCycles_eq_zero_iff hlegal
  refine ⟨?idle, ?loadPending, ?loadEntry, ?loadEmpty, ?drivePending, ?driveDelay, ?driveSlack,
    ?driveLoad, ?delaySlack, ?delayLoad, ?delayOn, ?slackLoad, ?slackOn⟩
  case idle => intro hp; rw [hidle hp, hp]
  case loadPending => intro hp hpend; rw [hload hp, Ddfs.loadPhase_of_pending hpend]
  case loadEntry =>
    intro hp hpend hq
    obtain ⟨c, rest, hq⟩ := List.exists_cons_of_ne_nil hq
    rw [hload hp, Ddfs.loadPhase_of_cons hpend hq]
  case loadEmpty =>
    intro hp hpend hq; rw [hload hp, Ddfs.loadPhase_of_nil hpend hq, d.stall_eq]; exact hp
  case drivePending => intro hp hpend; rw [hdrive hp, Ddfs.drivePhase_of_pending p hpend]; rfl
  case driveDelay =>
    intro hp hpend hx0
    rw [hdrive hp, Ddfs.drivePhase_of_not_pending p hpend]
    simp [Ddfs.driveEdge, Nat.pos_of_ne_zero (mt hx.1 hx0)]
  case driveSlack =>
    intro hp hpend hx0 hS
    rw [hdrive hp, Ddfs.drivePhase_of_not_pending p hpend]
    simp [Ddfs.driveEdge, hx.2 hx0, Ddfs.enterSlack, hS]
  case driveLoad =>
    intro hp hpend hx0 hS
    rw [hdrive hp, Ddfs.drivePhase_of_not_pending p hpend]
    simp [Ddfs.driveEdge, hx.2 hx0, Ddfs.enterSlack, hS]
  case delaySlack =>
    intro hp hd hS; rw [hdelay hp]; simp [Ddfs.delayPhase, hd, Ddfs.enterSlack, hS]
  case delayLoad =>
    intro hp hd hS; rw [hdelay hp]; simp [Ddfs.delayPhase, hd, Ddfs.enterSlack, hS]
  case delayOn =>
    intro hp hd
    have hd1 : d.dcnt ≠ 1#40 := by intro h; simp [h] at hd
    rw [hdelay hp]; simp [Ddfs.delayPhase, hd1, hp]
  case slackLoad => intro hp hs; rw [hslack hp]; simp [Ddfs.slackPhase, hs]
  case slackOn =>
    intro hp hs
    have hs1 : d.scnt ≠ 1#8 := by intro h; simp [h] at hs
    rw [hslack hp]; simp [Ddfs.slackPhase, hs1]

/-- Settles O40: the edge where no stop is pending, the teardown where one is. -/
theorem driveDrivesTheSelectedPattern : Obligations.DriveDrivesTheSelectedPattern := by
  intro p d hlegal hp
  obtain ⟨-, -, hdrive, -⟩ := d.engineRule_of_phase p
  rw [hdrive hp]
  refine ⟨fun hpend => ?_, fun hpend => ?_⟩
  · obtain ⟨hout, hph, hdcnt, hx, hq, -, -⟩ := d.driveEdge_writes p
    rw [Ddfs.drivePhase_of_not_pending p hpend, hdcnt, Ddfs.delayCycles_toNat hlegal]
    exact ⟨hout, hph, rfl, hx, hq⟩
  · exact Ddfs.drivePhase_of_pending p hpend

/-- Settles O41: no other phase than `DRIVE` writes the lines, nor does the scheduler or the promotion. -/
theorem edgesOnlyInDrive : Obligations.EdgesOnlyInDrive := by
  intro p ready d hp
  obtain ⟨hout, hown, hph, -⟩ := d.engineRule_of_not_drive p hp
  obtain ⟨acc, q, he⟩ := d.unitPhase_eq_engineRule p ready (Ddfs.engineTearsDown_of_not_drive hp)
  obtain ⟨hout', hown', hph'⟩ := (d.unitPhase p ready).promote_lines p
  have hbase := d.afterHost_pinBase p false ready
  rw [Ddfs.afterHost_not_lost] at hbase ⊢
  rw [he] at hout' hown' hph' hbase ⊢
  exact ⟨hout'.trans hout, hown'.trans hown, hph'.trans hph, hbase⟩

/-- Settles O42: the cycle is the rule of `LOAD`, on an empty channel the stall. -/
theorem underrunStallsAndRecovers : Obligations.UnderrunStallsAndRecovers := by
  intro p ready d hrun hp hpend
  obtain ⟨-, hload, -⟩ := d.engineRule_of_phase p
  obtain ⟨acc, q, he⟩ := Ddfs.afterHost_of_running p ready hrun
    (Ddfs.engineTearsDown_of_not_pending hpend)
  rw [he, hload hp]
  cases hq : d.q with
  | nil =>
    rw [Ddfs.loadPhase_of_nil hpend hq, d.stall_eq]
    refine ⟨hrun, rfl, rfl, rfl, rfl, fun _ => ⟨hp, rfl, rfl, ?_⟩, nofun⟩
    exact (apply_ite BitVec.toNat _ _ _).trans (by rw [satIncrement_toNat])
  | cons c rest =>
    rw [Ddfs.loadPhase_of_cons hpend hq]
    refine ⟨hrun, rfl, rfl, rfl, rfl, nofun, fun c' rest' h => ?_⟩
    exact ⟨rfl, (List.cons.inj h).1, rfl, rfl⟩

-- ---------------------------------------------------------------- the half-period law (O43)

/-- With no stop pending the engine comes to `LOAD` in `n` cycles: it counts down what is left of the
delay and of the slack (40_engine.md R126). -/
def Ddfs.LoadsIn (p : Params) (n : Nat) (d : Ddfs) : Prop :=
  (d.ePhase = .delay ∧ 0 < d.dcnt.toNat ∧ n = d.dcnt.toNat + p.slackCycles) ∨
  (d.ePhase = .slack ∧ 0 < d.scnt.toNat ∧ n = d.scnt.toNat) ∨
  (d.ePhase = .load ∧ n = 0)

theorem Ddfs.LoadsIn.not_drive {p : Params} {n : Nat} {d : Ddfs} (h : d.LoadsIn p n) :
    d.ePhase ≠ .drive := by
  obtain ⟨hp, -⟩ | ⟨hp, -⟩ | ⟨hp, -⟩ := h <;> simp [hp]

theorem Ddfs.LoadsIn.load {p : Params} {d : Ddfs} (h : d.LoadsIn p 0) : d.ePhase = .load := by
  obtain ⟨-, hpos, hn⟩ | ⟨-, hpos, hn⟩ | ⟨hp, -⟩ := h
  · omega
  · omega
  · exact hp

theorem Ddfs.LoadsIn.counting {p : Params} {n : Nat} {d : Ddfs} (h : d.LoadsIn p (n + 1)) :
    d.ePhase = .delay ∨ d.ePhase = .slack := by
  obtain ⟨hp, -⟩ | ⟨hp, -⟩ | ⟨-, hn⟩ := h
  · exact .inl hp
  · exact .inr hp
  · omega

/-- After an edge the whole delay and the whole slack are left. -/
theorem Ddfs.driveEdge_loadsIn {p : Params} (hlegal : p.legal = true) (d : Ddfs) :
    (d.driveEdge p).LoadsIn p (d.delayCycles p + p.slackCycles) := by
  have hdcnt := d.delayCycles_toNat hlegal
  have hscnt := slackCycles_toNat hlegal
  obtain ⟨hd, he⟩ | ⟨hd, hS, he⟩ | ⟨hd, hS, he⟩ := d.driveEdge_cases p
  · rw [he]; exact .inl ⟨rfl, hdcnt.symm ▸ hd, by rw [hdcnt]⟩
  · rw [he, hd, Nat.zero_add]; exact .inr (.inl ⟨rfl, hscnt.symm ▸ hS, hscnt.symm⟩)
  · rw [he, hd, hS]; exact .inr (.inr ⟨rfl, rfl⟩)

/-- Each cycle of the delay and of the slack counts one off. -/
theorem Ddfs.LoadsIn.engineRule {p : Params} {n : Nat} {d : Ddfs} (hlegal : p.legal = true)
    (h : d.LoadsIn p (n + 1)) : (d.engineRule p).LoadsIn p n := by
  obtain ⟨-, -, -, hdelay, hslack⟩ := d.engineRule_of_phase p
  obtain ⟨hp, hpos, hn⟩ | ⟨hp, hpos, hn⟩ | ⟨-, hn⟩ := h
  · rw [hdelay hp]
    obtain ⟨hd, hS, he⟩ | ⟨hd, hS, he⟩ | ⟨hd, he⟩ := d.delayPhase_cases p
    · have hd1 : d.dcnt.toNat = 1 := by rw [hd]; rfl
      have hscnt := slackCycles_toNat hlegal
      rw [he]; exact .inr (.inl ⟨rfl, hscnt.symm ▸ hS, hscnt.symm ▸ by omega⟩)
    · have hd1 : d.dcnt.toNat = 1 := by rw [hd]; rfl
      rw [he]; exact .inr (.inr ⟨rfl, by omega⟩)
    · have hd1 : d.dcnt.toNat ≠ 1 := by bv_omega
      have hcnt : (d.dcnt - 1#40).toNat = d.dcnt.toNat - 1 := by bv_omega
      rw [he]; exact .inl ⟨hp, hcnt.symm ▸ by omega, hcnt.symm ▸ by omega⟩
  · rw [hslack hp]
    by_cases hs : d.scnt = 1#8
    · have hs1 : d.scnt.toNat = 1 := by rw [hs]; rfl
      exact .inr (.inr ⟨if_pos hs, by omega⟩)
    · have hs1 : d.scnt.toNat ≠ 1 := by bv_omega
      have hcnt : (d.scnt - 1#8).toNat = d.scnt.toNat - 1 := by bv_omega
      exact .inr (.inl ⟨if_neg hs, hcnt.symm ▸ by omega, hcnt.symm ▸ by omega⟩)
  · omega

/-- Between the edge of `d` and the next `DRIVE`: the engine `e` still drives the edge's pattern from the
edge's count, and comes to `LOAD` in `n` cycles. -/
structure Ddfs.HoldsEdgeOf (p : Params) (d : Ddfs) (n : Nat) (e : Ddfs) : Prop where
  running : e.state = .running
  not_pending : e.stopPending = false
  out_held : e.out = d.pattern
  x_held : e.x = d.x
  loads_in : e.LoadsIn p n

/-- The cycle of a driving `DRIVE` leaves its edge held, with the whole delay and slack ahead. -/
theorem Ddfs.holdsEdgeOf_afterHost {p : Params} {d : Ddfs} (hlegal : p.legal = true)
    (hrun : d.state = .running) (hp : d.ePhase = .drive) (hpend : d.stopPending = false)
    (ready : Bool) :
    Ddfs.HoldsEdgeOf p d (d.delayCycles p + p.slackCycles) (d.afterHost p false ready) := by
  obtain ⟨-, -, hdrive, -⟩ := d.engineRule_of_phase p
  obtain ⟨acc, q, he⟩ := Ddfs.afterHost_of_running p ready hrun
    (Ddfs.engineTearsDown_of_not_pending hpend)
  obtain ⟨hout, -, -, hx, -, hstate, hstop⟩ := d.driveEdge_writes p
  rw [he, hdrive hp, Ddfs.drivePhase_of_not_pending p hpend]
  exact { running := hstate.trans hrun, not_pending := hstop.trans hpend, out_held := hout
          x_held := hx, loads_in := d.driveEdge_loadsIn hlegal }

/-- The edge stays held through the delay and the slack, and through a `LOAD` that stalls. -/
theorem Ddfs.HoldsEdgeOf.afterHost {p : Params} {d e : Ddfs} {n : Nat} (hlegal : p.legal = true)
    (h : Ddfs.HoldsEdgeOf p d n e) (hq : n = 0 → e.q = []) (ready : Bool) :
    Ddfs.HoldsEdgeOf p d (n - 1) (e.afterHost p false ready) := by
  obtain ⟨acc, q, he⟩ := Ddfs.afterHost_of_running p ready h.running
    (Ddfs.engineTearsDown_of_not_pending h.not_pending)
  rw [he]
  cases n with
  | zero =>
    obtain ⟨-, hload, -⟩ := e.engineRule_of_phase p
    rw [hload h.loads_in.load, Ddfs.loadPhase_of_nil h.not_pending (hq rfl), e.stall_eq]
    exact { h with }
  | succ n =>
    have hloads := h.loads_in.engineRule hlegal
    obtain ⟨phase, dcnt, scnt, he'⟩ := e.engineRule_of_counting p h.loads_in.counting
    rw [he'] at hloads ⊢
    exact { h with loads_in := hloads }

/-- The `LOAD` that finds an entry goes on to the next `DRIVE`. -/
theorem Ddfs.HoldsEdgeOf.drive_of_entry {p : Params} {d e : Ddfs} (h : Ddfs.HoldsEdgeOf p d 0 e)
    (hq : e.q ≠ []) (ready : Bool) : (e.afterHost p false ready).ePhase = .drive := by
  obtain ⟨-, hload, -⟩ := e.engineRule_of_phase p
  obtain ⟨acc, q, he⟩ := Ddfs.afterHost_of_running p ready h.running
    (Ddfs.engineTearsDown_of_not_pending h.not_pending)
  obtain ⟨c, rest, hq⟩ := List.exists_cons_of_ne_nil hq
  rw [he, hload h.loads_in.load, Ddfs.loadPhase_of_cons h.not_pending hq]

theorem Ddfs.quietRun_append (p : Params) (draws draws' : List Bool) (d : Ddfs) :
    Ddfs.quietRun p (draws ++ draws') d = Ddfs.quietRun p draws' (Ddfs.quietRun p draws d) := by
  induction draws generalizing d with
  | nil => rfl
  | cons ready rest ih => exact ih _

/-- One cycle more of a quiet run. -/
theorem Ddfs.quietRun_take_succ (p : Params) {draws : List Bool} {k : Nat} (hk : k < draws.length)
    (d : Ddfs) :
    Ddfs.quietRun p (draws.take (k + 1)) d =
      (Ddfs.quietRun p (draws.take k) d).afterHost p false draws[k] := by
  rw [← List.take_concat_get' draws k hk, Ddfs.quietRun_append]; rfl

/-- A quiet run from a driving `DRIVE` holds the edge until the stalls of the next `LOAD` end: `k + 1`
cycles on, `LOAD` is `delay + slack - k` cycles ahead. -/
theorem Ddfs.holdsEdgeOf_quietRun {p : Params} {d : Ddfs} {draws : List Bool} {stalls : Nat}
    (hlegal : p.legal = true) (hrun : d.state = .running) (hp : d.ePhase = .drive)
    (hpend : d.stopPending = false)
    (hlen : d.delayCycles p + p.slackCycles + 1 + stalls < draws.length)
    (hstall : ∀ j, j < stalls →
      (Ddfs.quietRun p (draws.take (d.delayCycles p + p.slackCycles + 1 + j)) d).q = [])
    (k : Nat) (hk : k ≤ d.delayCycles p + p.slackCycles + stalls) :
    Ddfs.HoldsEdgeOf p d (d.delayCycles p + p.slackCycles - k)
      (Ddfs.quietRun p (draws.take (k + 1)) d) := by
  induction k with
  | zero =>
    rw [Ddfs.quietRun_take_succ p (by omega), List.take_zero]
    exact Ddfs.holdsEdgeOf_afterHost hlegal hrun hp hpend _
  | succ k ih =>
    have hempty : d.delayCycles p + p.slackCycles - k = 0 →
        (Ddfs.quietRun p (draws.take (k + 1)) d).q = [] := by
      intro h0
      obtain ⟨j, rfl⟩ := Nat.exists_eq_add_of_le (Nat.sub_eq_zero_iff_le.1 h0)
      rw [Nat.add_right_comm]; exact hstall j (by omega)
    rw [Ddfs.quietRun_take_succ p (by omega), ← Nat.sub_sub]
    exact (ih (by omega)).afterHost hlegal hempty _

/-- Settles O43: the run holds the edge through the delay, the slack and the stalls; then `LOAD` finds an
entry. -/
theorem halfPeriodLaw : Obligations.HalfPeriodLaw := by
  intro p d draws stalls hlegal hrun hp hpend c run loadAt hlen hstall hentry
  have hlen' : draws.length = d.delayCycles p + p.slackCycles + 1 + stalls + 1 := by
    change draws.length = d.delayCycles p + (p.slackCycles + 2) + stalls at hlen
    omega
  have hholds := Ddfs.holdsEdgeOf_quietRun hlegal hrun hp hpend (by omega) hstall
  rw [← hlen, hlen']
  refine ⟨?_, fun k hpos hk => ?_⟩
  · have hlast : Ddfs.HoldsEdgeOf p d 0 (run (loadAt + stalls)) := by
      have := hholds (d.delayCycles p + p.slackCycles + stalls) le_rfl
      rwa [Nat.sub_eq_zero_of_le (Nat.le_add_right _ _), Nat.add_right_comm] at this
    have hlast_lt : loadAt + stalls < draws.length := hlen' ▸ Nat.lt_succ_self _
    calc (run (loadAt + stalls + 1)).ePhase
        = ((run (loadAt + stalls)).afterHost p false draws[loadAt + stalls]).ePhase :=
          congrArg Ddfs.ePhase (Ddfs.quietRun_take_succ p hlast_lt d)
      _ = .drive := hlast.drive_of_entry hentry _
  · obtain ⟨k, rfl⟩ := Nat.exists_eq_add_of_le' hpos
    have hheld := hholds k (by omega)
    exact ⟨hheld.loads_in.not_drive, hheld.out_held, hheld.x_held⟩

end Sys2Proof.Machine
end

section
/-! Proofs: the scheduler's increment and its steps (spec/41_scheduler.md R150 to R158, R163). First the
checks of `calc_inc` multiplied out and what one step emits and retains, said once; then the statements. -/

namespace Sys2Proof.Machine

-- ---------------------------------------------------------------- the increment (R150 to R152)

/-- The check of R150 leaves room for the overhead `K` of a half-period: the subtraction is exact. -/
theorem overhead_le_of_check {p : Params} {clk t : Nat}
    (hcheck : t * (p.overhead + p.loopCycles * p.minCount) ≤ clk * 2 ^ 31) :
    p.overhead * t * 2 ^ 32 ≤ clk * 2 ^ 63 :=
  calc p.overhead * t * 2 ^ 32
      ≤ (p.overhead + p.loopCycles * p.minCount) * t * 2 ^ 32 := by gcongr; exact Nat.le_add_right _ _
    _ = t * (p.overhead + p.loopCycles * p.minCount) * 2 ^ 32 := by ring
    _ ≤ clk * 2 ^ 31 * 2 ^ 32 := Nat.mul_le_mul_right _ hcheck
    _ = clk * 2 ^ 63 := by ring

/-- `T_max` of R152: the check of R150 divided by what a target is multiplied with. -/
theorem le_maxTarget_iff (p : Params) (clk t : Nat) :
    t ≤ clk * 2 ^ 31 / (p.slackCycles + 2 + p.loopCycles * p.minCount) ↔
      t * (p.overhead + p.loopCycles * p.minCount) ≤ clk * 2 ^ 31 :=
  Nat.le_div_iff_mul_le (by omega)

/-- The ideal count falls as the target grows (R150). -/
theorem idealCount_antitone (p : Params) (hL : 0 < p.loopCycles) (clk : Nat) {t t' : Nat}
    (ht' : 0 < t') (hle : t' ≤ t) :
    (clk * 2 ^ 63 - p.overhead * t * 2 ^ 32) / (p.loopCycles * t) ≤
      (clk * 2 ^ 63 - p.overhead * t' * 2 ^ 32) / (p.loopCycles * t') := by
  have hnum : clk * 2 ^ 63 - p.overhead * t * 2 ^ 32 ≤ clk * 2 ^ 63 - p.overhead * t' * 2 ^ 32 := by
    gcongr
  exact Nat.div_le_div hnum (Nat.mul_le_mul_left _ hle) (Nat.mul_pos hL ht').ne'

/-- Settles O29: the increment is a quotient of naturals whose dividend is exact. -/
theorem incrementIsTheFloorOfTheIdealCount : Obligations.IncrementIsTheFloorOfTheIdealCount := by
  intro p clk t inc hlegal h
  obtain ⟨-, -, -, ⟨hL, -⟩, -, -⟩ := Params.legal_iff.1 hlegal
  obtain ⟨⟨-, ht⟩, hcheck, -, hinc⟩ := calcIncNat_eq_some.mp (calcInc_eq_some.mp h)
  have hexact := overhead_le_of_check hcheck
  have hpos : 0 < p.loopCycles * t.toNat := Nat.mul_pos hL (Nat.pos_of_ne_zero ht)
  have hlow : inc.toNat * (p.loopCycles * t.toNat) ≤
      clk.toNat * 2 ^ 63 - p.overhead * t.toNat * 2 ^ 32 := by
    rw [hinc]; exact Nat.div_mul_le_self _ _
  have hhigh : clk.toNat * 2 ^ 63 - p.overhead * t.toNat * 2 ^ 32 <
      (inc.toNat + 1) * (p.loopCycles * t.toNat) := by
    rw [← Nat.div_lt_iff_lt_mul hpos, ← hinc]; exact Nat.lt_succ_self _
  rw [← Params.overhead]
  exact ⟨Nat.add_le_of_le_sub hexact hlow, by omega⟩

/-- Settles O30, by the bounds that the invariant of the block rests on. -/
theorem validIncrementsAreInBounds : Obligations.ValidIncrementsAreInBounds := by
  intro p clk t inc hlegal h
  obtain ⟨-, -, -, ⟨hL, -⟩, -, -⟩ := Params.legal_iff.1 hlegal
  exact calcInc_inBounds hL h

/-- Settles O31: above `T_max` the check of R150 fails; at or below it, a target greater than a valid one
passes the check and has no greater ideal count, so its increment is in range too. -/
theorem validTargetsFormAnInterval : Obligations.ValidTargetsFormAnInterval := by
  intro p clk t hlegal
  obtain ⟨-, -, -, ⟨hL, -⟩, -, -⟩ := Params.legal_iff.1 hlegal
  refine ⟨by simp [calcIncNat], by simp [calcIncNat], fun hmax => ?_, fun t' inc' h' hle hmax => ?_⟩
  · rw [Option.eq_none_iff_forall_ne_some]
    intro inc h
    obtain ⟨-, hcheck, -⟩ := calcIncNat_eq_some.mp h
    exact Nat.not_le.2 hmax ((le_maxTarget_iff p clk t).2 hcheck)
  · obtain ⟨⟨hclk, ht'⟩, -, hlt, rfl⟩ := calcIncNat_eq_some.mp h'
    have hfalls := idealCount_antitone p hL clk (Nat.pos_of_ne_zero ht') hle
    exact ⟨_, calcIncNat_eq_some.mpr ⟨⟨hclk, by omega⟩, (le_maxTarget_iff p clk t).1 hmax,
      hfalls.trans_lt hlt, rfl⟩, hfalls⟩

/-- Settles O32, by evaluating `calc_inc`. -/
theorem incrementOfTheSourcesRoundTrip : Obligations.IncrementOfTheSourcesRoundTrip := by
  unfold Obligations.IncrementOfTheSourcesRoundTrip
  decide

-- ---------------------------------------------------------------- one step (R154 to R156)

theorem Ddfs.nextAcc_toNat (d : Ddfs) : d.nextAcc.toNat = (d.acc.toNat + d.inc.toNat) % 2 ^ 32 :=
  BitVec.toNat_ofNat _ _

/-- In the bounds of R151 a step emits the integer part of `s`: `MIN_COUNT` does not lift it, and it fits
32 bits (R155). -/
theorem Ddfs.nextCount_toNat {p : Params} {d : Ddfs} (hinc : incInBounds p d.inc) :
    (d.nextCount p).toNat = (d.acc.toNat + d.inc.toNat) / 2 ^ 32 := by
  obtain ⟨hmin, hmax⟩ := hinc
  have hacc := d.acc.isLt
  have hclip : max ((d.acc.toNat + d.inc.toNat) / 2 ^ 32) p.minCount =
      (d.acc.toNat + d.inc.toNat) / 2 ^ 32 := Nat.max_eq_left (by omega)
  rw [Ddfs.nextCount, Ddfs.schedSum, hclip, BitVec.toNat_ofNat, Nat.mod_eq_of_lt (by omega)]

/-- Settles O33. -/
theorem theClipNeverActs : Obligations.TheClipNeverActs := by
  intro p d hinc
  have hcount := Ddfs.nextCount_toNat hinc
  obtain ⟨hmin, -⟩ := hinc
  have hbound := (d.nextCount p).isLt
  exact ⟨d.nextCount p, rfl, hcount, d.nextAcc_toNat, by omega, by omega, by omega, by omega⟩

theorem Ddfs.schedIterate_inc (p : Params) (n : Nat) (d : Ddfs) :
    (Ddfs.schedIterate p n d).inc = d.inc := by
  induction n generalizing d with
  | zero => rfl
  | succ n ih => exact ih (d.schedStep p)

/-- Settles O34: `s` is the integer part of `INC` and the sum of the two fractions, which carries at most
once. -/
theorem emittedCountsTakeTwoValues : Obligations.EmittedCountsTakeTwoValues := by
  intro p d n hinc e
  have he : e.inc = d.inc := d.schedIterate_inc p n
  refine ⟨he, ?_⟩
  rw [Ddfs.nextCount_toNat (he ▸ hinc), he]
  have hacc := e.acc.isLt
  split <;> omega

-- ---------------------------------------------------------------- many steps (R157, R158)

/-- Settles O35, by induction on the steps: the first emits the integer part of `s`, and the rest start
from its fraction. -/
theorem cumulativeCountLaw : Obligations.CumulativeCountLaw := by
  intro p d n hinc
  induction n generalizing d with
  | zero =>
    have hacc := d.acc.isLt
    simp only [Ddfs.emittedTotal, Ddfs.schedIterate, Nat.zero_mul, Nat.add_zero]
    omega
  | succ n ih =>
    obtain ⟨htotal, hrest⟩ := ih (d.schedStep p) hinc
    rw [Ddfs.schedStep_acc, Ddfs.schedStep_inc, d.nextAcc_toNat] at htotal hrest
    rw [Ddfs.emittedTotal, Ddfs.schedIterate, htotal, hrest, Ddfs.nextCount_toNat hinc, Nat.succ_mul]
    omega

/-- Settles O36, by induction on the segments: each leaves its fraction in `ACC` to the next. -/
theorem frequencySwitchesKeepThePhase : Obligations.FrequencySwitchesKeepThePhase := by
  intro p segments d hinc
  induction segments generalizing d with
  | nil =>
    have hacc := d.acc.isLt
    simp only [Ddfs.emittedOver, idealOver]
    omega
  | cons segment rest ih =>
    obtain ⟨inc, n⟩ := segment
    obtain ⟨hfirst, hothers⟩ := List.forall_mem_cons.1 hinc
    obtain ⟨htotal, hacc⟩ := cumulativeCountLaw p { d with inc := inc } n hfirst
    rw [Ddfs.emittedOver, idealOver, ih _ hothers, htotal, hacc]
    dsimp only
    omega

end Sys2Proof.Machine
end

section
/-! Proofs: a ready scheduler never starves the engine (spec/41_scheduler.md R160). `LOAD` finds a full
channel and takes one entry; the scheduler makes up for it in the `DRIVE` that follows, before the engine
can be at `LOAD` again. No event of the host phase and no line loss takes an entry from a run. -/

namespace Sys2Proof.Machine

-- ---------------------------------------------------------------- what keeps an instance well fed

theorem Ddfs.wellFed_of_not_running {p : Params} {d : Ddfs} (hrun : d.state ≠ .running)
    (hstall : d.stalled = false) (hq : d.q.length ≤ p.fifoDepth) : d.WellFed p :=
  { not_stalled := hstall
    nearly_full := fun h => absurd h hrun
    full_at_load := fun h => absurd h hrun
    bounded := hq }

theorem Ddfs.wellFed_of_full {p : Params} {d : Ddfs} (hstall : d.stalled = false)
    (hq : d.q.length = p.fifoDepth) : d.WellFed p :=
  { not_stalled := hstall
    nearly_full := fun _ => by omega
    full_at_load := fun _ _ => hq
    bounded := hq.le }

theorem Ddfs.Released.wellFed {d : Ddfs} (h : d.Released) (p : Params) : d.WellFed p := by
  obtain ⟨hq, -⟩ := h.cleared
  exact Ddfs.wellFed_of_not_running h.not_running h.not_stalled (by simp [hq])

/-- The promotion comes with the full channel that the first `LOAD` takes from (44_cycle.md R244). -/
theorem Ddfs.Filling.promote_wellFed {p : Params} {d : Ddfs} (h : d.Filling p) :
    (d.promote p).WellFed p := by
  obtain ⟨-, hq, he⟩ | ⟨-, he⟩ := d.promote_cases p
  · rw [he]; exact Ddfs.wellFed_of_full h.not_stalled hq
  · rw [he]; exact Ddfs.wellFed_of_not_running (by simp [h.initializing]) h.not_stalled h.level_bounded

/-- A command takes no entry from a run and sets no stall; it leaves the underrun counter or clears it. -/
theorem CommandEffect.keeps_wellFed {s : State} {f : Ddfs → Ddfs} {p : Params} {d : Ddfs}
    (hf : CommandEffect s f) (h : d.WellFed p) :
    (f d).WellFed p ∧ ((f d).underrunCnt = d.underrunCnt ∨ (f d).underrunCnt = 0#32) := by
  cases hf with
  | nop => exact ⟨{ h with }, .inl rfl⟩
  | start pinBase pat =>
    obtain ⟨code, he, -⟩ | ⟨inc, -, -, -, -, he⟩ := d.startCommand_cases s.params
      (pinsAvailable s.params s.linesAvail pinBase.toNat) (s.linesTaken pinBase.toNat) pinBase pat
    · rw [he]; exact ⟨{ h with }, .inl rfl⟩
    · rw [he]; exact ⟨Ddfs.wellFed_of_not_running nofun rfl (Nat.zero_le _), .inr rfl⟩
  | setFreq pr =>
    obtain ⟨-, he⟩ | ⟨inc, -, -, he⟩ := d.setFreqCommand_cases s.params pr
    · rw [he]; exact ⟨{ h with }, .inl rfl⟩
    · rw [he]; exact ⟨{ h with }, .inl rfl⟩
  | stop force =>
    obtain ⟨-, he⟩ | ⟨-, he⟩ | ⟨-, -, he⟩ := d.stopCommand_cases force
    · rw [he]; exact ⟨{ h with }, .inl rfl⟩
    · rw [he]; exact ⟨Ddfs.wellFed_of_not_running nofun rfl (Nat.zero_le _), .inl rfl⟩
    · rw [he]; exact ⟨{ h with }, .inl rfl⟩
  | clrUnderrun => exact ⟨{ h with }, .inr rfl⟩
  | illegal => exact ⟨{ h with }, .inl rfl⟩

theorem Ddfs.writeReg_keeps_wellFed {p : Params} {d : Ddfs} (h : d.WellFed p) (off : Nat) (v : Word) :
    (d.writeReg off v).WellFed p ∧ (d.writeReg off v).underrunCnt = d.underrunCnt := by
  unfold Ddfs.writeReg
  split <;> exact ⟨{ h with }, rfl⟩

theorem HostEffect.keeps_wellFed {s : State} {i : Nat} {f : Ddfs → Ddfs} {p : Params} {d : Ddfs}
    (hf : HostEffect s i f) (h : d.WellFed p) :
    (f d).WellFed p ∧ ((f d).underrunCnt = d.underrunCnt ∨ (f d).underrunCnt = 0#32) := by
  cases hf with
  | nothing => exact ⟨h, .inl rfl⟩
  | write off v =>
    obtain ⟨hfed, hcnt⟩ := Ddfs.writeReg_keeps_wellFed h off v
    exact ⟨hfed, .inl hcnt⟩
  | command hc => exact hc.keeps_wellFed h

-- ---------------------------------------------------------------- the phases after the host phase

/-- The engine stalls, and counts an underrun, only at a `LOAD` that finds the channel empty
(40_engine.md R121). -/
theorem Ddfs.engineRule_no_stall (p : Params) {d : Ddfs} (hentry : d.ePhase = .load → d.q ≠ [])
    (hstall : d.stalled = false) :
    (d.engineRule p).stalled = false ∧ (d.engineRule p).underrunCnt = d.underrunCnt := by
  obtain ⟨hidle, hload, hdrive, -⟩ := d.engineRule_of_phase p
  cases hp : d.ePhase with
  | idle => rw [hidle hp]; exact ⟨hstall, rfl⟩
  | load =>
    rw [hload hp]
    obtain ⟨-, he⟩ | ⟨c, rest, -, -, he⟩ | ⟨-, hq, -⟩ := d.loadPhase_cases
    · rw [he]; exact ⟨rfl, rfl⟩
    · rw [he]; exact ⟨rfl, rfl⟩
    · exact absurd hq (hentry hp)
  | drive =>
    rw [hdrive hp, Ddfs.drivePhase]
    split
    · exact ⟨rfl, rfl⟩
    · obtain ⟨-, he⟩ | ⟨-, -, he⟩ | ⟨-, -, he⟩ := d.driveEdge_cases p <;> rw [he] <;>
        exact ⟨hstall, rfl⟩
  | delay =>
    obtain ⟨_, _, _, he⟩ := d.engineRule_of_counting p (.inl hp)
    rw [he]; exact ⟨hstall, rfl⟩
  | slack =>
    obtain ⟨_, _, _, he⟩ := d.engineRule_of_counting p (.inr hp)
    rw [he]; exact ⟨hstall, rfl⟩

/-- A `LOAD` that finds an entry leaves the phase, with at most one entry taken. -/
theorem Ddfs.loadPhase_of_entry {d : Ddfs} (hq : d.q ≠ []) :
    d.loadPhase.ePhase = .drive ∧ d.q.length ≤ d.loadPhase.q.length + 1 ∧
      d.loadPhase.q.length ≤ d.q.length := by
  obtain ⟨-, he⟩ | ⟨c, rest, -, hq', he⟩ | ⟨-, hq', -⟩ := d.loadPhase_cases
  · simp [he]
  · simp [he, hq']
  · exact absurd hq' hq

/-- The unit phase of a Running instance with its scheduler ready: a full channel gives at most one entry,
at `LOAD`; one that lacks an entry gets it back, the engine being in another phase. -/
theorem Ddfs.WellFed.unitPhase_of_running {p : Params} {d : Ddfs} (hdepth : 0 < p.fifoDepth)
    (h : d.WellFed p) (hrun : d.state = .running) :
    (d.unitPhase p true).WellFed p ∧ (d.unitPhase p true).underrunCnt = d.underrunCnt := by
  have hbounded := h.bounded
  have hentry : d.ePhase = .load → d.q ≠ [] := fun hp =>
    List.ne_nil_of_length_pos (h.full_at_load hrun hp ▸ hdepth)
  obtain ⟨hstall, hcnt⟩ := Ddfs.engineRule_no_stall p hentry h.not_stalled
  have hkept (ht : d.engineTearsDown = false) (hp : d.ePhase ≠ .load) :
      (d.engineRule p).q = d.q := by
    rw [d.engineRule_q p (mt Ddfs.engineTearsDown_iff.2 (by simp [ht]))]; simp [hp]
  obtain ⟨-, he⟩ | ⟨ht, hs, he⟩ | ⟨ht, hs, he⟩ := d.unitPhase_cases p true
  · rw [he]; exact ⟨(d.release_released (.inl rfl)).wellFed p, rfl⟩
  · obtain ⟨-, -, hroom⟩ := Ddfs.schedSteps_iff.1 hs
    have hp : d.ePhase ≠ .load := fun hp => hroom.ne (h.full_at_load hrun hp)
    have hnearly := h.nearly_full hrun
    rw [he]
    refine ⟨Ddfs.wellFed_of_full hstall ?_, hcnt⟩
    simp only [hkept ht hp, List.length_append, List.length_singleton]
    omega
  · have hfull : d.q.length = p.fifoDepth := by
      have hnot : ¬d.q.length < p.fifoDepth := fun hroom =>
        Bool.eq_false_iff.1 hs (Ddfs.schedSteps_iff.2 ⟨.inr hrun, rfl, hroom⟩)
      omega
    rw [he]
    refine ⟨?_, hcnt⟩
    by_cases hp : d.ePhase = .load
    · obtain ⟨-, hload, -⟩ := d.engineRule_of_phase p
      obtain ⟨hdrive, hleast, hmost⟩ := Ddfs.loadPhase_of_entry (hentry hp)
      rw [hload hp] at hstall ⊢
      exact { not_stalled := hstall, nearly_full := fun _ => by omega
              full_at_load := fun _ hp' => by simp [hdrive] at hp', bounded := by omega }
    · exact Ddfs.wellFed_of_full hstall (by rw [hkept ht hp, hfull])

theorem Ddfs.Filling.unitPhase_underrunCnt {p : Params} {d : Ddfs} (h : d.Filling p) (ready : Bool) :
    (d.unitPhase p ready).underrunCnt = d.underrunCnt := by
  obtain ⟨acc, q, he⟩ := d.unitPhase_eq_engineRule p ready
    (Ddfs.engineTearsDown_of_not_pending h.not_pending)
  obtain ⟨hidle, -⟩ := d.engineRule_of_phase p
  rw [he, hidle h.idle]

theorem Ddfs.promote_underrunCnt (p : Params) (d : Ddfs) :
    (d.promote p).underrunCnt = d.underrunCnt := by
  obtain ⟨-, -, he⟩ | ⟨-, he⟩ := d.promote_cases p <;> rw [he]

theorem Ddfs.WellFed.lineLossPhase {p : Params} {d : Ddfs} (h : d.WellFed p) (lost : Bool) :
    (d.lineLossPhase lost).WellFed p ∧ (d.lineLossPhase lost).underrunCnt = d.underrunCnt := by
  obtain ⟨-, -, he⟩ | ⟨-, he⟩ := d.lineLossPhase_cases lost
  · rw [he]; exact ⟨(d.release_released (.inr rfl)).wellFed p, rfl⟩
  · rw [he]; exact ⟨h, rfl⟩

/-- The phases after the host phase, with the scheduler ready, keep an instance well fed and count
nothing. -/
theorem Ddfs.WellFed.afterHost {p : Params} {d : Ddfs} (hlegal : p.legal = true) (hinv : d.PhaseInv p)
    (h : d.WellFed p) (lost : Bool) :
    (d.afterHost p lost true).WellFed p ∧ (d.afterHost p lost true).underrunCnt = d.underrunCnt := by
  obtain ⟨-, -, ⟨hdepth, -⟩, -, -, -⟩ := Params.legal_iff.1 hlegal
  obtain ⟨hfed, hcnt⟩ := h.lineLossPhase lost
  rw [Ddfs.afterHost, Ddfs.promote_underrunCnt, ← hcnt]
  cases hinv.lineLossPhase lost with
  | released hr =>
    rw [hr.unitPhase_eq, Ddfs.promote_of_not_initializing p hr.not_initializing]
    exact ⟨hfed, rfl⟩
  | filling hf => exact ⟨(hf.unitPhase true).promote_wellFed, hf.unitPhase_underrunCnt true⟩
  | cycling hc =>
    have hnot : ((d.lineLossPhase lost).unitPhase p true).state ≠ .initializing := by
      obtain hr | ⟨hc', -⟩ := hc.unitPhase_released_or_cycling hlegal true
      · exact hr.not_initializing
      · simp [hc'.running]
    rw [Ddfs.promote_of_not_initializing p hnot]
    exact hfed.unitPhase_of_running hdepth hc.running

-- ---------------------------------------------------------------- the step (O54)

/-- The host phase as any one instance sees it: its own access, or nothing. -/
theorem State.hostPhase_getElem? {s u : State} {accs : List (Nat × Nat × HostAccess)}
    (hu : s.hostPhase accs = .next u) (i : Nat) :
    ∃ f, HostEffect s i f ∧ u.insts[i]? = (s.insts[i]?).map f ∧ u.params = s.params := by
  obtain ⟨j, f, hf, -, -, hinsts, hparams, -⟩ := State.hostPhase_effect hu
  by_cases hj : j = i
  · subst hj; exact ⟨f, hf, by simp [hinsts], hparams⟩
  · exact ⟨id, .nothing, by simp [hinsts, hj], hparams⟩

/-- Settles O54: a reset cycle leaves the instance Stopped; in any other neither the host phase nor the
phases after it starve the engine. -/
theorem readySchedulerNeverStarvesTheEngine : Obligations.ReadySchedulerNeverStarvesTheEngine := by
  refine ⟨fun p d hinv hs => (hinv.released (.inl hs)).wellFed p, ?_⟩
  intro s t i d hinv hstep hi hready hfed
  obtain ⟨hblock, ⟨-, rfl⟩ | ⟨-, u, hu, rfl⟩⟩ := step_eq_next.1 hstep
  · obtain ⟨-, hlen⟩ := State.isBlock_iff.1 hblock
    obtain ⟨hlt, -⟩ := List.getElem?_eq_some_iff.1 hi
    refine ⟨Ddfs.reset, ?_, Ddfs.reset_released.wellFed _, .inr rfl⟩
    simp [← hlen, hlt]
  · obtain ⟨hlegal, -⟩ := State.isBlock_iff.1 hblock
    obtain ⟨f, hf, hget, hparams⟩ := State.hostPhase_getElem? hu i
    rw [State.sample_insts, hi] at hget
    have hphase : (f d).PhaseInv s.params :=
      hf.keeps_phaseInv (s := s.sample s.currentInputs) hlegal
        (hinv.each d (List.mem_of_getElem? hi)).phaseInv
    obtain ⟨hfed', hcnt⟩ := hf.keeps_wellFed hfed
    obtain ⟨hafter, hafterCnt⟩ := hfed'.afterHost hlegal hphase (s.currentInputs.linesLost.getLsbD i)
    refine ⟨_, ?_, hafter, hafterCnt ▸ hcnt⟩
    rw [State.unitsPhase_getElem?, hget, hparams, hready]
    rfl

end Sys2Proof.Machine
end

section
/-! Proofs: the channel (spec/42_channel.md R181 to R186). What the unit phase does to the channel and to
the scheduler's registers, said once; a quiet run is then a chain of such phases. -/

namespace Sys2Proof.Machine

-- ---------------------------------------------------------------- one unit phase (R183, R184)

/-- The scheduler pushes exactly on the four conditions of 41_scheduler.md R153. -/
theorem Ddfs.pushes_iff {p : Params} {ready : Bool} {d : Ddfs} :
    d.engineTearsDown = false ∧ d.schedSteps p ready = true ↔
      (d.state = .initializing ∨ d.state = .running) ∧ ready = true ∧ d.q.length < p.fifoDepth ∧
        ¬(d.ePhase = .drive ∧ d.stopPending = true) := by
  rw [← Ddfs.engineTearsDown_iff, Bool.not_eq_true, Ddfs.schedSteps_iff, and_comm]
  simp only [and_assoc]

/-- The pop at the head and the push at the tail of one unit phase without a teardown (R183). -/
theorem Ddfs.unitPhase_q (p : Params) (ready : Bool) {d : Ddfs} (ht : d.engineTearsDown = false) :
    (d.unitPhase p ready).q =
      (if d.ePhase = .load ∧ d.stopPending = false then d.q.drop 1 else d.q) ++
      (if d.engineTearsDown = false ∧ d.schedSteps p ready = true then [d.nextCount p] else []) := by
  have hpop := d.engineRule_q p (mt Ddfs.engineTearsDown_iff.2 (by simp [ht]))
  obtain ⟨ht', -⟩ | ⟨-, hs, he⟩ | ⟨-, hs, he⟩ := d.unitPhase_cases p ready
  · simp [ht] at ht'
  · rw [he, ← hpop, if_pos ⟨ht, hs⟩]
  · rw [he, ← hpop, if_neg (by simp [hs]), List.append_nil]

theorem Ddfs.unitPhase_of_tearsDown (p : Params) (ready : Bool) {d : Ddfs}
    (ht : d.engineTearsDown = true) : d.unitPhase p ready = d.teardown := by
  obtain ⟨-, he⟩ | ⟨ht', -⟩ | ⟨ht', -⟩ := d.unitPhase_cases p ready
  · exact he
  · simp [ht] at ht'
  · simp [ht] at ht'

/-- `ACC` is written with each push and by nothing else (41_scheduler.md R153, R154). -/
theorem Ddfs.unitPhase_acc (p : Params) (ready : Bool) (d : Ddfs) :
    (d.unitPhase p ready).acc =
      if d.engineTearsDown = false ∧ d.schedSteps p ready = true then d.nextAcc else d.acc := by
  obtain ⟨-, -, -, -, hacc, -⟩ := d.engineRule_frame p
  obtain ⟨ht, he⟩ | ⟨ht, hs, he⟩ | ⟨-, hs, he⟩ := d.unitPhase_cases p ready
  · rw [he, if_neg (by simp [ht]), Ddfs.teardown_acc]
  · rw [he, if_pos ⟨ht, hs⟩]
  · rw [he, if_neg (by simp [hs]), hacc]

/-- Neither unit writes `INC` (41_scheduler.md R162). -/
theorem Ddfs.unitPhase_inc (p : Params) (ready : Bool) (d : Ddfs) :
    (d.unitPhase p ready).inc = d.inc := by
  obtain ⟨-, -, -, hinc, -⟩ := d.engineRule_frame p
  obtain ⟨-, he⟩ | ⟨-, -, he⟩ | ⟨-, -, he⟩ := d.unitPhase_cases p ready
  · rw [he, Ddfs.teardown_inc]
  · rw [he, hinc]
  · rw [he, hinc]

/-- Settles O37: the outcome of the unit phase, register by register. -/
theorem unitPhaseMovesTheChannel : Obligations.UnitPhaseMovesTheChannel := by
  intro p ready d tearsDown steps
  have hsteps : d.engineTearsDown = false ∧ d.schedSteps p ready = true ↔ steps := Ddfs.pushes_iff
  have htears : d.engineTearsDown = true ↔ tearsDown := Ddfs.engineTearsDown_iff
  refine ⟨fun hnot => ?_, fun ht => ?_, ?_, d.unitPhase_inc p ready⟩
  · have ht : d.engineTearsDown = false := Bool.eq_false_iff.2 (mt htears.1 hnot)
    simp only [d.unitPhase_q p ready ht, hsteps]
  · rw [Ddfs.unitPhase_of_tearsDown p ready (htears.2 ht), Ddfs.teardown_q]
  · simp only [d.unitPhase_acc, hsteps, apply_ite BitVec.toNat, d.nextAcc_toNat]

-- ---------------------------------------------------------------- a quiet run (R186)

/-- No rule of the engine requests a stop (43_controller.md R208 does). -/
theorem Ddfs.engineRule_not_pending (p : Params) {d : Ddfs} (hpend : d.stopPending = false) :
    (d.engineRule p).stopPending = false := by
  obtain ⟨hidle, hload, hdrive, -⟩ := d.engineRule_of_phase p
  cases hphase : d.ePhase with
  | idle => rw [hidle hphase, hpend]
  | load =>
    rw [hload hphase]
    cases hq : d.q with
    | nil => rw [Ddfs.loadPhase_of_nil hpend hq, Ddfs.stall_eq, hpend]
    | cons c rest => rw [Ddfs.loadPhase_of_cons hpend hq, hpend]
  | drive =>
    obtain ⟨-, -, -, -, -, -, hkept⟩ := d.driveEdge_writes p
    rw [hdrive hphase, Ddfs.drivePhase_of_not_pending p hpend, hkept, hpend]
  | delay =>
    obtain ⟨_, _, _, he⟩ := d.engineRule_of_counting p (.inl hphase)
    rw [he, hpend]
  | slack =>
    obtain ⟨_, _, _, he⟩ := d.engineRule_of_counting p (.inr hphase)
    rw [he, hpend]

/-- The promotion writes `STATE` and the phase alone, so not the channel (44_cycle.md R244). -/
theorem Ddfs.promote_channel (p : Params) (d : Ddfs) :
    (d.promote p).q = d.q ∧ (d.promote p).stopPending = d.stopPending := by
  obtain ⟨-, -, he⟩ | ⟨-, he⟩ := d.promote_cases p
  · simp [he]
  · simp [he]

theorem Ddfs.afterHost_not_pending (p : Params) (ready : Bool) {d : Ddfs}
    (hpend : d.stopPending = false) : (d.afterHost p false ready).stopPending = false := by
  obtain ⟨acc, q, he⟩ := d.unitPhase_eq_engineRule p ready (Ddfs.engineTearsDown_of_not_pending hpend)
  obtain ⟨-, hkept⟩ := (d.unitPhase p ready).promote_channel p
  rw [Ddfs.afterHost_not_lost, hkept, he]
  exact Ddfs.engineRule_not_pending p hpend

/-- One cycle conserves the entries in their order: the old channel with the push behind it is the pop
with the new channel behind it (R183). -/
theorem Ddfs.afterHost_channel (p : Params) (ready : Bool) {d : Ddfs} (hpend : d.stopPending = false) :
    d.q ++ (if d.engineTearsDown = false ∧ d.schedSteps p ready = true then [d.nextCount p] else []) =
      (if d.ePhase = .load ∧ d.stopPending = false then d.q.take 1 else []) ++
        (d.afterHost p false ready).q := by
  obtain ⟨hq, -⟩ := (d.unitPhase p ready).promote_channel p
  rw [Ddfs.afterHost_not_lost, hq, d.unitPhase_q p ready (Ddfs.engineTearsDown_of_not_pending hpend),
    ← List.append_assoc]
  congr 1
  split
  · rw [List.take_append_drop]
  · rw [List.nil_append]

/-- Settles O38, by induction on the cycles: each conserves the entries in their order, and the next
starts from the channel it leaves. -/
theorem channelIsFirstInFirstOut : Obligations.ChannelIsFirstInFirstOut := by
  intro p draws d hpend
  induction draws generalizing d with
  | nil => simp [Ddfs.pushed, Ddfs.popped, Ddfs.quietRun]
  | cons ready rest ih =>
    rw [Ddfs.pushed, Ddfs.popped, Ddfs.quietRun, ← List.append_assoc,
      Ddfs.afterHost_channel p ready hpend, List.append_assoc, List.append_assoc,
      ih _ (Ddfs.afterHost_not_pending p ready hpend)]

end Sys2Proof.Machine
end

section
/-! Proofs: the controller (spec/43_controller.md R200 to R217). First what a command does to the instance
it is written to, as one function, and what each command can write; then a run from its prefill to its
first edge and from a pending stop to its end, and the step of a Fatal instance. -/

namespace Sys2Proof.Machine

-- ---------------------------------------------------------------- what a command does (R200)

/-- What the command `i` does to the instance of its window in the host phase. -/
def commandOn (i : Instr) (s : State) : Ddfs → Ddfs :=
  match i with
  | .nop => Ddfs.succeed
  | .start pinBase pat =>
    Ddfs.startCommand s.params (pinsAvailable s.params s.linesAvail pinBase.toNat)
      (s.linesTaken pinBase.toNat) pinBase pat
  | .setFreq pr => Ddfs.setFreqCommand s.params pr
  | .stop force => Ddfs.stopCommand force
  | .clrUnderrun => Ddfs.clrUnderrunCommand

theorem exec_eq_onTarget (i : Instr) (s : State) : exec i s = .next (s.onTarget (commandOn i s)) := by
  cases i with
  | nop => exact exec_nop s
  | start pinBase pat => exact exec_start pinBase pat s
  | setFreq pr => exact exec_setFreq pr s
  | stop force => exact exec_stop force s
  | clrUnderrun => exact exec_clrUnderrun s

/-- The next state of a command, once it is known what its instance becomes. -/
theorem exec_of_targets {i : Instr} {s : State} {d e : Ddfs} (hd : s.targets d)
    (he : commandOn i s d = e) : exec i s = .next (s.setTarget e) := by
  rw [exec_eq_onTarget, State.onTarget_eq_setTarget hd, he]

theorem eq_commandOn_of_exec {i : Instr} {s t : State} {d e : Ddfs} (hd : s.targets d)
    (hexec : exec i s = .next t) (he : t.targets e) : e = commandOn i s d := by
  rw [exec_eq_onTarget, Host.Outcome.next.injEq] at hexec
  subst hexec
  have hget : some e = (s.insts[s.cmdWindow]?).map (commandOn i s) :=
    he.symm.trans ((State.modifyInst_getElem? _ _ s _).trans (if_pos rfl))
  rw [hd] at hget
  exact Option.some.inj hget

/-- Settles O15: a command is an update of one entry of the list of instances. -/
theorem commandsCompleteAndTouchOneInstance : Obligations.CommandsCompleteAndTouchOneInstance := by
  intro i s
  refine ⟨_, exec_eq_onTarget i s, rfl, rfl, rfl, rfl, rfl, rfl, by simp, fun j hj => ?_⟩
  rw [State.onTarget, State.modifyInst_getElem?, if_neg hj.symm]

-- ---------------------------------------------------------------- the branches of the commands

theorem Ddfs.startCommand_of_failure {p : Params} {pinsOk taken : Bool} {pinBase : BitVec 5}
    {pat : BitVec 4} {d : Ddfs} {code : Result} (h : startFailure d.state pinsOk taken = some code) :
    d.startCommand p pinsOk taken pinBase pat = d.fail code := by
  simp only [Ddfs.startCommand, h]

theorem Ddfs.startCommand_of_passed {p : Params} {pinsOk taken : Bool} {pinBase : BitVec 5}
    {pat : BitVec 4} {d : Ddfs} (h : startFailure d.state pinsOk taken = none) :
    d.startCommand p pinsOk taken pinBase pat =
      (calcInc p d.clkHz d.target).elim (d.fail .configError) (d.startRun pinBase pat) := by
  simp only [Ddfs.startCommand, h]
  cases calcInc p d.clkHz d.target <;> rfl

theorem startFailure_of_active {st : RunState} (hst : st = .initializing ∨ st = .running)
    (pinsOk taken : Bool) : startFailure st pinsOk taken = some .resourceConflict := by
  obtain rfl | rfl := hst <;> rfl

theorem Ddfs.stopCommand_of_inactive {d : Ddfs} (h : d.state = .stopped ∨ d.state = .fatal)
    (force : Bool) : d.stopCommand force = d.succeed := by
  obtain hs | hs := h <;> simp only [Ddfs.stopCommand, hs]

theorem Ddfs.stopCommand_of_teardown {d : Ddfs} {force : Bool}
    (h : d.state = .initializing ∨ d.state = .running ∧ force = true) :
    d.stopCommand force = d.teardown.succeed := by
  obtain hs | ⟨hs, rfl⟩ := h
  · simp only [Ddfs.stopCommand, hs]
  · simp only [Ddfs.stopCommand, hs, if_true]

theorem Ddfs.stopCommand_of_graceful {d : Ddfs} (h : d.state = .running) :
    d.stopCommand false = { d with stopPending := true, result := .ok } := by
  simp only [Ddfs.stopCommand, h]; rfl

theorem Ddfs.setFreqCommand_of_active {p : Params} {pr : Bool} {d : Ddfs}
    (h : d.state = .initializing ∨ d.state = .running) :
    d.setFreqCommand p pr = (calcInc p d.clkAct d.target).elim (d.fail .configError)
      fun inc => { d with inc := inc, acc := if pr then 0#32 else d.acc, result := .ok } := by
  rw [Ddfs.setFreqCommand, if_pos (Ddfs.active_iff.2 h)]
  cases calcInc p d.clkAct d.target <;> rfl

-- ---------------------------------------------------------------- NOP, STOP, CLR_UNDERRUN

/-- Settles O5. -/
theorem nopWritesOnlyResult : Obligations.NopWritesOnlyResult :=
  ⟨rfl, fun _ _ hd => exec_of_targets hd rfl⟩

/-- Settles O11. -/
theorem gracefulStopMarksTheStopPending : Obligations.GracefulStopMarksTheStopPending :=
  fun _ _ hd hrun => exec_of_targets hd (Ddfs.stopCommand_of_graceful hrun)

/-- Settles O12. -/
theorem forcedStopTearsDown : Obligations.ForcedStopTearsDown :=
  fun _ _ _ hd hs => exec_of_targets hd (Ddfs.stopCommand_of_teardown hs)

/-- Settles O13. -/
theorem stopOfAnInactiveInstanceIsOk : Obligations.StopOfAnInactiveInstanceIsOk :=
  fun _ _ force hd hs => exec_of_targets hd (Ddfs.stopCommand_of_inactive hs force)

/-- Settles O14. -/
theorem clrUnderrunZeroesTheCounter : Obligations.ClrUnderrunZeroesTheCounter :=
  fun _ _ hd => exec_of_targets hd rfl

-- ---------------------------------------------------------------- START (R203, R204)

/-- The checks of R203 before the increment pass on a Stopped instance with usable, free lines. -/
theorem startFailure_of_free {s : State} {d : Ddfs} {pb : Nat} (hstopped : d.state = .stopped)
    (husable : s.linesUsable pb) (hfree : ¬s.otherOwns pb) :
    startFailure d.state (pinsAvailable s.params s.linesAvail pb) (s.linesTaken pb) = none :=
  startFailure_eq_none.2 ⟨hstopped, pinsAvailable_iff.2 husable,
    Bool.eq_false_iff.2 (mt State.linesTaken_iff.1 hfree)⟩

/-- Settles O6: the checks of R203 pass, and the increment is valid. -/
theorem startBeginsARun : Obligations.StartBeginsARun := by
  intro s d pinBase pat inc hd hstopped husable hfree hcalc
  have hinc : calcInc s.params d.clkHz d.target = some inc := hcalc
  apply exec_of_targets hd
  rw [commandOn, Ddfs.startCommand_of_passed (startFailure_of_free hstopped husable hfree), hinc]
  rfl

/-- Settles O7: each clause makes one check of R262 the first that fails. -/
theorem failedStartReportsTheFirstCause : Obligations.FailedStartReportsTheFirstCause := by
  intro s d pinBase pat hd
  have hfail (code : Result)
      (h : startFailure d.state (pinsAvailable s.params s.linesAvail pinBase.toNat)
        (s.linesTaken pinBase.toNat) = some code) :
      exec (.start pinBase pat) s = .next (s.setTarget { d with result := code }) :=
    exec_of_targets hd (Ddfs.startCommand_of_failure h)
  refine ⟨fun hfatal => ?_, fun hactive => ?_, fun hstopped hunusable => ?_,
    fun hstopped husable howned => ?_, fun hstopped husable hfree hcalc => ?_⟩
  · apply hfail; rw [hfatal]; rfl
  · exact hfail _ (startFailure_of_active hactive _ _)
  · have hpins := Bool.eq_false_iff.2 (mt pinsAvailable_iff.1 hunusable)
    apply hfail; rw [hstopped, hpins]; rfl
  · have hpins := pinsAvailable_iff.2 husable
    have htaken := State.linesTaken_iff.2 howned
    apply hfail; rw [hstopped, hpins, htaken]; rfl
  · have hinvalid : calcInc s.params d.clkHz d.target = none := hcalc
    apply exec_of_targets hd
    rw [commandOn, Ddfs.startCommand_of_passed (startFailure_of_free hstopped husable hfree), hinvalid]
    rfl

-- ---------------------------------------------------------------- SET_FREQ (R206, R213)

/-- Settles O8. -/
theorem setFreqWritesTheIncrement : Obligations.SetFreqWritesTheIncrement := by
  intro s d pr inc hd hactive hcalc
  have hinc : calcInc s.params d.clkAct d.target = some inc := hcalc
  apply exec_of_targets hd
  rw [commandOn, Ddfs.setFreqCommand_of_active hactive, hinc]
  rfl

/-- Settles O9: where `SET_FREQ` succeeds the instance is active and its target valid. -/
theorem failedSetFreqWritesOnlyResult : Obligations.FailedSetFreqWritesOnlyResult := by
  intro s d pr hd hbad
  apply exec_of_targets hd
  obtain ⟨-, he⟩ | ⟨inc, hactive, hcalc, -⟩ := d.setFreqCommand_cases s.params pr
  · exact he
  · obtain hs | hs | hinvalid := hbad
    · simp [Ddfs.active_iff, hs] at hactive
    · simp [Ddfs.active_iff, hs] at hactive
    · exact absurd (hcalc.symm.trans hinvalid) (Option.some_ne_none inc)

/-- Settles O10: the increment written is the one in force. -/
theorem repeatedSetFreqIsIdempotent : Obligations.RepeatedSetFreqIsIdempotent :=
  fun s d hd hactive hcalc => setFreqWritesTheIncrement s d false d.inc hd hactive hcalc

-- ---------------------------------------------------------------- an illegal word (R215)

theorem State.runCommand_of_illegal {w : Word} (hw : ∀ instr, decode w ≠ .ok instr) (i : Nat)
    (s : State) : s.runCommand i w = .next (illegalCommand { s with cmdWindow := i }) := by
  unfold State.runCommand
  cases hdec : decode w with
  | ok instr => exact absurd hdec (hw instr)
  | error r => rfl

/-- Settles O18. -/
theorem illegalWordWritesOnlyResult : Obligations.IllegalWordWritesOnlyResult := by
  intro s i d w hd hw
  have htarget : ({ s with cmdWindow := i } : State).targets d := hd
  calc s.hostWrite i 0x00 4 w
      = s.runCommand i w := rfl
    _ = .next (illegalCommand { s with cmdWindow := i }) := State.runCommand_of_illegal hw i s
    _ = _ := by rw [illegalCommand, State.onTarget_eq_setTarget htarget]; rfl

-- ---------------------------------------------------------------- what commands leave unchanged

/-- Settles O16: each outcome of each command is a list of writes, none of them to a field that the
statement says the command keeps. -/
theorem commandFrames : Obligations.CommandFrames := by
  intro i s t d e hd hexec he
  obtain rfl := eq_commandOn_of_exec hd hexec he
  cases i with
  | nop => simp [commandOn]
  | start pinBase pat =>
    have hstart : ¬∀ pb pt, Instr.start pinBase pat ≠ .start pb pt := fun h => h _ _ rfl
    refine ⟨?_, fun h => absurd h hstart, fun h => absurd h hstart, fun h => absurd h hstart,
      fun h => absurd h hstart⟩
    obtain ⟨code, he, -⟩ | ⟨inc, -, -, -, -, he⟩ := d.startCommand_cases s.params
      (pinsAvailable s.params s.linesAvail pinBase.toNat) (s.linesTaken pinBase.toNat) pinBase pat
    · simp [commandOn, he]
    · simp [commandOn, he]
  | setFreq pr =>
    obtain ⟨-, he⟩ | ⟨inc, -, -, he⟩ := d.setFreqCommand_cases s.params pr
    · simp [commandOn, he]
    · simp [commandOn, he]
  | stop force =>
    obtain ⟨-, he⟩ | ⟨-, he⟩ | ⟨-, -, he⟩ := d.stopCommand_cases force
    · simp [commandOn, he]
    · simp [commandOn, he]
    · simp [commandOn, he]
  | clrUnderrun => simp [commandOn, Ddfs.clrUnderrunCommand]

-- ---------------------------------------------------------------- what commands do to STATE (R201)

theorem Ddfs.startCommand_state (p : Params) (pinsOk taken : Bool) (pinBase : BitVec 5)
    (pat : BitVec 4) (d : Ddfs) :
    (d.startCommand p pinsOk taken pinBase pat).state = d.state ∨
    (d.state = .stopped ∧ (d.startCommand p pinsOk taken pinBase pat).state = .initializing ∧
      (d.startCommand p pinsOk taken pinBase pat).result = .ok) := by
  obtain ⟨code, he, -⟩ | ⟨inc, hs, -, -, -, he⟩ := d.startCommand_cases p pinsOk taken pinBase pat
  · rw [he]; exact .inl rfl
  · rw [he]; exact .inr ⟨hs, rfl, rfl⟩

theorem Ddfs.setFreqCommand_state (p : Params) (pr : Bool) (d : Ddfs) :
    (d.setFreqCommand p pr).state = d.state := by
  obtain ⟨-, he⟩ | ⟨inc, -, -, he⟩ := d.setFreqCommand_cases p pr
  · rw [he]; rfl
  · rw [he]

theorem Ddfs.stopCommand_state (force : Bool) (d : Ddfs) :
    (d.stopCommand force).state = d.state ∨
    ((d.state = .initializing ∨ d.state = .running ∧ force = true) ∧
      (d.stopCommand force).state = .stopped ∧ (d.stopCommand force).result = .ok) := by
  obtain ⟨-, he⟩ | ⟨hs, he⟩ | ⟨-, -, he⟩ := d.stopCommand_cases force
  · rw [he]; exact .inl rfl
  · rw [he]; exact .inr ⟨hs, rfl, rfl⟩
  · rw [he]; exact .inl rfl

/-- Settles O17. -/
theorem commandsChangeStateOnlyAsTheTableSays :
    Obligations.CommandsChangeStateOnlyAsTheTableSays := by
  intro i s t d e hd hexec he
  obtain rfl := eq_commandOn_of_exec hd hexec he
  cases i with
  | nop => exact .inl rfl
  | start pinBase pat =>
    obtain hs | hstarted := d.startCommand_state s.params
      (pinsAvailable s.params s.linesAvail pinBase.toNat) (s.linesTaken pinBase.toNat) pinBase pat
    · exact .inl hs
    · exact .inr (.inl ⟨⟨pinBase, pat, rfl⟩, hstarted⟩)
  | setFreq pr => exact .inl (d.setFreqCommand_state s.params pr)
  | stop force =>
    obtain hs | hstopped := d.stopCommand_state force
    · exact .inl hs
    · exact .inr (.inr ⟨force, rfl, hstopped⟩)
  | clrUnderrun => exact .inl rfl

-- ---------------------------------------------------------------- Fatal (R216)

theorem CommandEffect.keeps_fatal {s : State} {f : Ddfs → Ddfs} {d : Ddfs} (hf : CommandEffect s f)
    (hfatal : d.state = .fatal) : (f d).state = .fatal := by
  cases hf with
  | nop => exact hfatal
  | start pinBase pat => rw [Ddfs.startCommand_of_failure (by rw [hfatal]; rfl)]; exact hfatal
  | setFreq pr => rw [Ddfs.setFreqCommand_state, hfatal]
  | stop force => rw [Ddfs.stopCommand_of_inactive (.inr hfatal)]; exact hfatal
  | clrUnderrun => exact hfatal
  | illegal => exact hfatal

theorem Ddfs.writeReg_state (off : Nat) (v : Word) (d : Ddfs) : (d.writeReg off v).state = d.state := by
  unfold Ddfs.writeReg
  split <;> rfl

/-- No event of the host phase takes an instance out of Fatal. -/
theorem HostEffect.keeps_fatal {s : State} {i : Nat} {f : Ddfs → Ddfs} {d : Ddfs}
    (hf : HostEffect s i f) (hfatal : d.state = .fatal) : (f d).state = .fatal := by
  cases hf with
  | nothing => exact hfatal
  | write off v => rw [Ddfs.writeReg_state, hfatal]
  | command hc => exact hc.keeps_fatal hfatal

theorem Ddfs.PhaseInv.released_of_fatal {p : Params} {d : Ddfs} (h : d.PhaseInv p)
    (hfatal : d.state = .fatal) : d.Released := by
  cases h with
  | released h => exact h
  | filling h => simpa [hfatal] using h.initializing
  | cycling h => simpa [hfatal] using h.running

/-- Settles O55: the host phase leaves the instance Fatal, and the phases after it leave what is Fatal as
it is. -/
theorem fatalIsLeftOnlyByReset : Obligations.FatalIsLeftOnlyByReset := by
  intro s t i d hinv hstep hrst hi hfatal
  obtain ⟨hblock, ⟨hrst', -⟩ | ⟨-, u, hu, rfl⟩⟩ := step_eq_next.1 hstep
  · simp [hrst] at hrst'
  · obtain ⟨hlegal, -⟩ := State.isBlock_iff.1 hblock
    obtain ⟨f, hf, hget, -⟩ := State.hostPhase_getElem? hu i
    rw [State.sample_insts, hi] at hget
    have hphase : (f d).PhaseInv s.params :=
      hf.keeps_phaseInv (s := s.sample s.currentInputs) hlegal
        (hinv.each d (List.mem_of_getElem? hi)).phaseInv
    have hfatal' := hf.keeps_fatal hfatal
    have hreleased := hphase.released_of_fatal hfatal'
    obtain ⟨hq, -⟩ := hreleased.cleared
    refine ⟨f d, ?_, hfatal', hreleased.not_own, hq⟩
    rw [State.unitsPhase_getElem?, hget, Option.map_some, Option.map_some, hreleased.afterHost_eq]

-- ---------------------------------------------------------------- from START to the first edge (R205)

theorem Ddfs.promote_of_full {p : Params} {d : Ddfs} (hs : d.state = .initializing)
    (hq : d.q.length = p.fifoDepth) : d.promote p = { d with state := .running, ePhase := .load } :=
  if_pos ⟨hs, hq⟩

theorem Ddfs.promote_of_not_full {p : Params} {d : Ddfs} (hq : d.q.length ≠ p.fifoDepth) :
    d.promote p = d := if_neg fun ⟨_, hfull⟩ => hq hfull

/-- A cycle of the prefill with its scheduler ready pushes one entry, the engine being idle; then comes the
promotion. -/
theorem Ddfs.afterHost_of_prefill {p : Params} {d : Ddfs} (hs : d.state = .initializing)
    (hidle : d.ePhase = .idle) (hroom : d.q.length < p.fifoDepth) :
    ∃ acc q, q.length = d.q.length + 1 ∧
      d.afterHost p false true = Ddfs.promote p { d with acc := acc, q := q } := by
  obtain ⟨hrule, -⟩ := d.engineRule_of_phase p
  have ht : d.engineTearsDown = false := Ddfs.engineTearsDown_of_not_drive (by simp [hidle])
  have hsteps : d.schedSteps p true = true := Ddfs.schedSteps_iff.2 ⟨.inl hs, rfl, hroom⟩
  refine ⟨d.nextAcc, d.q ++ [d.nextCount p], by simp, ?_⟩
  obtain ⟨ht', -⟩ | ⟨-, -, he⟩ | ⟨-, hsteps', -⟩ := d.unitPhase_cases p true
  · simp [ht] at ht'
  · rw [Ddfs.afterHost_not_lost, he, hrule hidle]
  · simp [hsteps] at hsteps'

theorem Ddfs.quietRun_replicate_succ (p : Params) (k : Nat) (ready : Bool) (d : Ddfs) :
    Ddfs.quietRun p (List.replicate (k + 1) ready) d =
      (Ddfs.quietRun p (List.replicate k ready) d).afterHost p false ready := by
  rw [List.replicate_succ', Ddfs.quietRun_append]; rfl

/-- After `k` cycles of the prefill the channel holds `k` entries, and the scheduler's remainder alone has
changed beside it. -/
theorem Ddfs.quietRun_of_prefill {p : Params} {d : Ddfs} (hs : d.state = .initializing)
    (hq : d.q = []) (hidle : d.ePhase = .idle) (k : Nat) (hk : k < p.fifoDepth) :
    ∃ acc q, q.length = k ∧
      Ddfs.quietRun p (List.replicate k true) d = { d with acc := acc, q := q } := by
  induction k with
  | zero => exact ⟨d.acc, [], rfl, by rw [← hq]; rfl⟩
  | succ k ih =>
    obtain ⟨acc, q, hlen, he⟩ := ih (by omega)
    obtain ⟨acc', q', hlen', hcycle⟩ := Ddfs.afterHost_of_prefill (p := p)
      (d := { d with acc := acc, q := q }) hs hidle (hlen.trans_lt (by omega))
    have hlevel : q'.length = k + 1 := hlen'.trans (congrArg (· + 1) hlen)
    refine ⟨acc', q', hlevel, ?_⟩
    rw [Ddfs.quietRun_replicate_succ, he, hcycle]
    exact Ddfs.promote_of_not_full (hlevel.trans_ne hk.ne)

/-- The push that fills the channel ends the prefill: the instance is Running and at `LOAD` (44_cycle.md
R244). -/
theorem Ddfs.quietRun_of_filled {p : Params} {d : Ddfs} (hdepth : 0 < p.fifoDepth)
    (hs : d.state = .initializing) (hq : d.q = []) (hidle : d.ePhase = .idle) :
    ∃ acc q, q.length = p.fifoDepth ∧ Ddfs.quietRun p (List.replicate p.fifoDepth true) d =
      { d with acc := acc, q := q, state := .running, ePhase := .load } := by
  obtain ⟨k, hk⟩ := Nat.exists_eq_add_of_le' hdepth
  have hlast : k < p.fifoDepth := by omega
  obtain ⟨acc, q, hlen, he⟩ := Ddfs.quietRun_of_prefill hs hq hidle k hlast
  obtain ⟨acc', q', hlen', hcycle⟩ := Ddfs.afterHost_of_prefill (p := p)
    (d := { d with acc := acc, q := q }) hs hidle (hlen.trans_lt hlast)
  have hfull : q'.length = p.fifoDepth := (hlen'.trans (congrArg (· + 1) hlen)).trans hk.symm
  refine ⟨acc', q', hfull, ?_⟩
  calc Ddfs.quietRun p (List.replicate p.fifoDepth true) d
      = Ddfs.quietRun p (List.replicate (k + 1) true) d := by rw [hk]
    _ = Ddfs.promote p { d with acc := acc', q := q' } := by
        rw [Ddfs.quietRun_replicate_succ, he, hcycle]
    _ = _ := Ddfs.promote_of_full hs hfull

/-- A `LOAD` that finds an entry goes on to `DRIVE` and keeps the output state and the flags. -/
theorem Ddfs.afterHost_of_load_entry (p : Params) (ready : Bool) {d : Ddfs}
    (hrun : d.state = .running) (hload : d.ePhase = .load) (hpend : d.stopPending = false)
    (hq : d.q ≠ []) :
    ∃ x acc q, d.afterHost p false ready =
      { d with x := x, acc := acc, q := q, stalled := false, ePhase := .drive } := by
  obtain ⟨c, rest, hq⟩ := List.exists_cons_of_ne_nil hq
  obtain ⟨-, hrule, -⟩ := d.engineRule_of_phase p
  obtain ⟨acc, q, he⟩ := Ddfs.afterHost_of_running p ready hrun
    (Ddfs.engineTearsDown_of_not_pending hpend)
  rw [hrule hload, Ddfs.loadPhase_of_cons hpend hq] at he
  exact ⟨c, acc, q, he⟩

/-- Settles O44: the last push of the prefill promotes the instance, `LOAD` finds its entries, and the
`DRIVE` after it makes the edge that `PH` selects. -/
theorem prefillAndFirstEdge : Obligations.PrefillAndFirstEdge := by
  intro p d hlegal hs hq hidle hph hpend run
  obtain ⟨-, -, ⟨hdepth, -⟩, -, -, -⟩ := Params.legal_iff.1 hlegal
  obtain ⟨acc, q, hfull, hfilled⟩ := Ddfs.quietRun_of_filled hdepth hs hq hidle
  have hentry : q ≠ [] := List.ne_nil_of_length_pos (hfull ▸ hdepth)
  have hdrive : ∃ x acc q, run (p.fifoDepth + 1) = { d with
      x := x, acc := acc, q := q, state := .running, stalled := false, ePhase := .drive } := by
    rw [show run (p.fifoDepth + 1) = _ from Ddfs.quietRun_replicate_succ p _ true d, hfilled]
    exact Ddfs.afterHost_of_load_entry p true rfl rfl hpend hentry
  obtain ⟨x, acc', q', hdrive⟩ := hdrive
  have hedge : (run (p.fifoDepth + 2)).out = d.patA := by
    calc (run (p.fifoDepth + 2)).out
        = ((run (p.fifoDepth + 1)).afterHost p false true).out :=
          congrArg Ddfs.out (Ddfs.quietRun_replicate_succ p _ true d)
      _ = (run (p.fifoDepth + 1)).pattern := by
          have hpend' : (run (p.fifoDepth + 1)).stopPending = false := by rw [hdrive]; exact hpend
          have hheld := Ddfs.holdsEdgeOf_afterHost hlegal (by rw [hdrive]) (by rw [hdrive]) hpend' true
          exact hheld.out_held
      _ = d.patA := by simp [hdrive, Ddfs.pattern, hph]
  refine ⟨fun k hk => ?_, ?_⟩
  · obtain ⟨acc, q, hlen, he⟩ := Ddfs.quietRun_of_prefill hs hq hidle k hk
    simp [run, he, hs, hlen]
  · have hfilled : run p.fifoDepth = _ := hfilled
    simp [hfilled, hfull, hdrive, hedge]

-- ---------------------------------------------------------------- from a pending stop to its end (R208)

/-- A stop is pending and the engine comes to the `DRIVE` that tears down in `n` cycles: the way to `LOAD`,
and the `LOAD` itself (70_reset_and_hazards.md R299). -/
structure Ddfs.StopsIn (p : Params) (n : Nat) (d : Ddfs) : Prop where
  running : d.state = .running
  pending : d.stopPending = true
  phase : (d.ePhase = .drive ∧ n = 0) ∨ ∃ m, n = m + 1 ∧ d.LoadsIn p m

theorem Ddfs.StopsIn.drive {p : Params} {d : Ddfs} (h : d.StopsIn p 0) : d.ePhase = .drive := by
  obtain ⟨hp, -⟩ | ⟨m, hm, -⟩ := h.phase
  · exact hp
  · omega

theorem Ddfs.StopsIn.loadsIn {p : Params} {n : Nat} {d : Ddfs} (h : d.StopsIn p (n + 1)) :
    d.LoadsIn p n := by
  obtain ⟨-, hn⟩ | ⟨m, hm, hloads⟩ := h.phase
  · omega
  · rwa [Nat.succ_inj.1 hm]

/-- `DRIVE` takes the stop: the cycle is the teardown (40_engine.md R122). -/
theorem Ddfs.StopsIn.afterHost_of_drive {p : Params} {d : Ddfs} (h : d.StopsIn p 0) (ready : Bool) :
    d.afterHost p false ready = d.teardown := by
  rw [Ddfs.afterHost_not_lost,
    Ddfs.unitPhase_of_tearsDown p ready (Ddfs.engineTearsDown_iff.2 ⟨h.drive, h.pending⟩)]
  exact Ddfs.promote_of_not_initializing p nofun

/-- Each cycle before the `DRIVE` brings it one cycle nearer, whatever the scheduler draws. -/
theorem Ddfs.StopsIn.afterHost {p : Params} {n : Nat} {d : Ddfs} (hlegal : p.legal = true)
    (h : d.StopsIn p (n + 1)) (ready : Bool) : (d.afterHost p false ready).StopsIn p n := by
  obtain ⟨acc, q, he⟩ := Ddfs.afterHost_of_running p ready h.running
    (Ddfs.engineTearsDown_of_not_drive h.loadsIn.not_drive)
  rw [he]
  cases n with
  | zero =>
    obtain ⟨-, hrule, -⟩ := d.engineRule_of_phase p
    rw [hrule h.loadsIn.load, Ddfs.loadPhase_of_pending h.pending]
    exact { running := h.running, pending := h.pending, phase := .inl ⟨rfl, rfl⟩ }
  | succ n =>
    have hloads := h.loadsIn.engineRule hlegal
    obtain ⟨phase, dcnt, scnt, he'⟩ := d.engineRule_of_counting p h.loadsIn.counting
    rw [he'] at hloads ⊢
    exact { running := h.running, pending := h.pending, phase := .inr ⟨n, rfl, hloads⟩ }

theorem Ddfs.Released.quietRun_eq {d : Ddfs} (h : d.Released) (p : Params) (draws : List Bool) :
    Ddfs.quietRun p draws d = d := by
  induction draws with
  | nil => rfl
  | cons ready rest ih => rw [Ddfs.quietRun, h.afterHost_eq, ih]

/-- A quiet run that is long enough to reach the `DRIVE` ends Stopped, with the lines released. -/
theorem Ddfs.StopsIn.quietRun {p : Params} {n : Nat} {d : Ddfs} {draws : List Bool}
    (hlegal : p.legal = true) (h : d.StopsIn p n) (hlen : n < draws.length) :
    (Ddfs.quietRun p draws d).state = .stopped ∧ (Ddfs.quietRun p draws d).own = false := by
  induction draws generalizing n d with
  | nil => simp at hlen
  | cons ready rest ih =>
    rw [Ddfs.quietRun]
    cases n with
    | zero =>
      have hreleased : d.teardown.Released := d.release_released (.inl rfl)
      rw [h.afterHost_of_drive, hreleased.quietRun_eq]
      exact ⟨rfl, rfl⟩
    | succ n => exact ih (h.afterHost hlegal ready) (Nat.lt_of_succ_lt_succ hlen)

/-- A Running engine with a pending stop is within `L * X + S + 1` cycles of the `DRIVE`: at most the whole
delay, the whole slack and one `LOAD` are ahead of it. -/
theorem Ddfs.exists_stopsIn {p : Params} {d : Ddfs} (hrun : d.state = .running)
    (hpend : d.stopPending = true) (hactive : d.ePhase ≠ .idle)
    (hdelay : d.ePhase = .delay → 0 < d.dcnt.toNat ∧ d.dcnt.toNat ≤ d.delayCycles p)
    (hslack : d.ePhase = .slack → 0 < d.scnt.toNat ∧ d.scnt.toNat ≤ p.slackCycles) :
    ∃ n, n < d.delayCycles p + p.overhead ∧ d.StopsIn p n := by
  have hloads (m : Nat) (hm : m ≤ d.delayCycles p + p.slackCycles) (h : d.LoadsIn p m) :
      ∃ n, n < d.delayCycles p + p.overhead ∧ d.StopsIn p n :=
    ⟨m + 1, by simp only [Params.overhead]; omega, hrun, hpend, .inr ⟨m, rfl, h⟩⟩
  cases hp : d.ePhase with
  | idle => exact absurd hp hactive
  | load => exact hloads 0 (Nat.zero_le _) (.inr (.inr ⟨hp, rfl⟩))
  | drive => exact ⟨0, by simp only [Params.overhead]; omega, hrun, hpend, .inl ⟨hp, rfl⟩⟩
  | delay =>
    obtain ⟨hpos, hle⟩ := hdelay hp
    exact hloads _ (by omega) (.inl ⟨hp, hpos, rfl⟩)
  | slack =>
    obtain ⟨hpos, hle⟩ := hslack hp
    exact hloads _ (by omega) (.inr (.inl ⟨hp, hpos, rfl⟩))

/-- Settles O45: the `DRIVE` that takes the stop is less than `L * X + K` cycles ahead, and the run stays
Stopped after it. -/
theorem pendingStopEndsTheRun : Obligations.PendingStopEndsTheRun := by
  intro p d draws hlegal hrun hactive hdelay hslack hlen
  obtain ⟨n, hn, hstops⟩ := Ddfs.exists_stopsIn (p := p) (d := { d with stopPending := true })
    hrun rfl hactive hdelay hslack
  exact hstops.quietRun hlegal (Nat.lt_of_lt_of_le hn hlen)

end Sys2Proof.Machine
end

section
/-! Proofs: the cycle (spec/44_cycle.md R240 to R248). First what a step of a block is with and without
`rst`, and what the host phase is for each number of accesses; then what a cycle makes of an instance whose
window it does not access, and the level of a line. -/

namespace Sys2Proof.Machine

-- ---------------------------------------------------------------- the two kinds of cycle (R240, R245)

theorem step_of_rst {s : State} (hblock : s.isBlock = true) (hrst : s.currentInputs.rst = true) :
    step s = .next (s.sample s.currentInputs).resetCycle :=
  step_eq_next.2 ⟨hblock, .inl ⟨hrst, rfl⟩⟩

theorem step_of_not_rst {s : State} (hblock : s.isBlock = true)
    (hrst : s.currentInputs.rst = false) :
    step s = thenNext
      ((s.sample s.currentInputs).hostPhase (selectedAccesses s.params s.currentInputs.accesses))
      (State.unitsPhase s.currentInputs) := by
  simp [step, State.clock, State.cycleWith, hblock, hrst]

@[simp] theorem thenNext_next (s : State) (f : State → State) : thenNext (.next s) f = .next (f s) :=
  rfl

/-- Settles O50: the reset cycle samples its inputs and resets the instances, and it runs no host phase. -/
theorem resetCycleResetsEveryInstance : Obligations.ResetCycleResetsEveryInstance :=
  fun _ hblock hrst => step_of_rst hblock hrst

-- ---------------------------------------------------------------- the access of a cycle (R241)

@[simp] theorem State.hostPhase_nil (s : State) : s.hostPhase [] = .next s := rfl

@[simp] theorem State.hostPhase_singleton (i off : Nat) (a : HostAccess) (s : State) :
    s.hostPhase [(i, off, a)] = s.hostAccess i off a := rfl

theorem State.hostWrite_cmd (i : Nat) (w : Word) (s : State) :
    s.hostWrite i 0x00 4 w = s.runCommand i w := rfl

theorem State.runCommand_of_decode {w : Word} {instr : Instr} (hw : decode w = .ok instr) (i : Nat)
    (s : State) : s.runCommand i w = exec instr { s with cmdWindow := i } := by
  simp only [State.runCommand, hw]

/-- Settles O46: the one access is a write to `CMD`, and its word is run as the instruction it decodes
to. -/
theorem stepRunsTheDecodedCommand : Obligations.StepRunsTheDecodedCommand := by
  intro s j a w instr hblock hrst hsel hwidth hkind hdecode _
  rw [step_of_not_rst hblock hrst, hsel, State.hostPhase_singleton, State.hostAccess_write hkind,
    hwidth, State.hostWrite_cmd, State.runCommand_of_decode hdecode]

/-- Settles O47: the host phase of one access is that access, and of none is nothing. -/
theorem stepRunsTheSelectedAccess : Obligations.StepRunsTheSelectedAccess := by
  intro s hblock hrst
  refine ⟨fun j off a hsel => ⟨?_, fun v hkind => State.hostAccess_write hkind j off _⟩,
    fun hsel => ?_⟩
  · rw [step_of_not_rst hblock hrst, hsel, State.hostPhase_singleton]
  · rw [step_of_not_rst hblock hrst, hsel, State.hostPhase_nil, thenNext_next]

/-- Settles O48: a reset cycle has no host phase, and the host phase of at most one access completes. -/
theorem theBlockNeverHalts : Obligations.TheBlockNeverHalts := by
  intro s hblock haccepted
  cases hrst : s.currentInputs.rst with
  | true => exact ⟨_, step_of_rst hblock hrst⟩
  | false =>
    have hone : (selectedAccesses s.params s.currentInputs.accesses).length ≤ 1 :=
      haccepted.resolve_left (by simp [hrst])
    obtain ⟨u, hu⟩ := State.hostPhase_completes.1 hone
    exact ⟨_, step_eq_next.2 ⟨hblock, .inr ⟨hrst, u, hu, rfl⟩⟩⟩

/-- Settles O49: the cycle's inputs are taken before its phases, and no phase of either kind of cycle
moves them or the constants. -/
theorem stepKeepsTheConfiguration : Obligations.StepKeepsTheConfiguration := by
  intro s t hstep
  obtain ⟨hblock, ⟨-, rfl⟩ | ⟨-, u, hu, rfl⟩⟩ := step_eq_next.1 hstep
  · obtain ⟨-, hlen⟩ := State.isBlock_iff.1 hblock
    exact ⟨rfl, by simp [hlen], rfl, rfl, rfl⟩
  · obtain ⟨i, f, -, -, -, hinsts, hparams, hinputs, hcycle, hlines⟩ := State.hostPhase_effect hu
    exact ⟨hparams, by simp [hinsts], hinputs, hcycle, hlines⟩

-- ---------------------------------------------------------------- an unaccessed instance (R248)

/-- The host phase leaves an instance alone whose window no access of the cycle names. -/
theorem State.hostPhase_getElem?_of_not_accessed {s u : State} {accs : List (Nat × Nat × HostAccess)}
    {i : Nat} (hu : s.hostPhase accs = .next u) (hacc : ∀ x ∈ accs, x.1 ≠ i) :
    u.insts[i]? = s.insts[i]? := by
  obtain ⟨j, f, -, hwindow, hnone, hinsts, -⟩ := State.hostPhase_effect hu
  cases accs with
  | nil =>
    obtain ⟨rfl, -⟩ := hnone rfl
    rfl
  | cons x rest =>
    have hj : j ≠ i := hwindow x List.mem_cons_self ▸ hacc x List.mem_cons_self
    simp [hinsts, hj]

/-- What a cycle makes of an instance whose window it does not access: its reset state in a reset cycle,
its phases under its own draws in any other. Nothing else of the block enters. -/
theorem step_getElem?_of_not_accessesWindow {s t : State} {i : Nat} (hstep : step s = .next t)
    (hacc : ¬ s.accessesWindow i) :
    t.insts[i]? = (s.insts[i]?).map fun d =>
      if s.currentInputs.rst then Ddfs.reset
      else d.afterHost s.params (s.currentInputs.linesLost.getLsbD i)
        (s.currentInputs.schedReady.getLsbD i) := by
  obtain ⟨hblock, ⟨hrst, rfl⟩ | ⟨hrst, u, hu, rfl⟩⟩ := step_eq_next.1 hstep
  · obtain ⟨-, hlen⟩ := State.isBlock_iff.1 hblock
    have hreset : List.replicate s.params.nInst Ddfs.reset = s.insts.map fun _ => Ddfs.reset := by
      rw [List.map_const', hlen]
    rw [State.resetCycle_insts, State.sample_params, hreset, List.getElem?_map]
    simp [hrst]
  · have hother : ∀ x ∈ selectedAccesses s.params s.currentInputs.accesses, x.1 ≠ i := by
      rintro ⟨j, off, a⟩ hx rfl
      exact hacc ⟨off, a, hx⟩
    have hget := State.hostPhase_getElem?_of_not_accessed hu hother
    obtain ⟨-, -, -, -, -, -, hparams, -⟩ := State.hostPhase_effect hu
    rw [State.unitsPhase_getElem?, hget, hparams]
    simp [hrst]

/-- Settles O58: what a cycle makes of the instance names only what the two blocks agree on. -/
theorem instancesAreIndependent : Obligations.InstancesAreIndependent := by
  intro s s' t t' i hstep hstep' hparams hinst hrst hready hlost hacc hacc'
  rw [step_getElem?_of_not_accessesWindow hstep hacc,
    step_getElem?_of_not_accessesWindow hstep' hacc', hparams, hinst, hrst, hready, hlost]

/-- Settles O59: what a cycle makes of the instance, in the case without `rst`. -/
theorem unaccessedInstanceRunsItsUnits : Obligations.UnaccessedInstanceRunsItsUnits := by
  intro s t i d hstep hrst hi hacc
  rw [step_getElem?_of_not_accessesWindow hstep hacc, hi, hrst]
  rfl

-- ---------------------------------------------------------------- the lines (R246)

theorem Ddfs.ownsLine_iff {j : Nat} {d : Ddfs} :
    d.ownsLine j = true ↔
      d.own = true ∧ d.pinBase.toNat ≤ j ∧ j ≤ d.pinBase.toNat + 3 := by
  simp [Ddfs.ownsLine, and_assoc]

theorem State.observe_getElem? {s : State} {j : Nat} (hj : j < s.params.nLines) :
    s.observe[j]? = some (lineLevel j s.insts) := by
  simp [State.observe, hj]

theorem lineLevel_of_no_owner {j : Nat} {l : List Ddfs} (h : ∀ d ∈ l, ¬ d.ownsLine j = true) :
    lineLevel j l = .notDriven := by
  induction l with
  | nil => rfl
  | cons d ds ih =>
    obtain ⟨hd, hds⟩ := List.forall_mem_cons.1 h
    rw [lineLevel, if_neg hd, ih hds]

theorem lineLevel_of_only_owner {j : Nat} {l : List Ddfs} {d : Ddfs} (hmem : d ∈ l)
    (hown : d.ownsLine j = true) (honly : ∀ e ∈ l, e.ownsLine j = true → e = d) :
    lineLevel j l = if d.out.getLsbD (j - d.pinBase.toNat) then .high else .low := by
  induction l with
  | nil => cases hmem
  | cons e es ih =>
    obtain ⟨he, hes⟩ := List.forall_mem_cons.1 honly
    by_cases hfirst : e.ownsLine j = true
    · rw [lineLevel, if_pos hfirst, he hfirst]
    · have hrest : d ∈ es := (List.mem_cons.1 hmem).resolve_left fun h => hfirst (h ▸ hown)
      rw [lineLevel, if_neg hfirst, ih hrest hes]

/-- Instances that share no line do not both own one (10_state.md R37). -/
theorem Ddfs.not_disjointFrom_of_ownsLine {j : Nat} {d e : Ddfs} (hd : d.ownsLine j = true)
    (he : e.ownsLine j = true) : ¬ d.disjointFrom e := by
  obtain ⟨-, hdlo, hdhi⟩ := Ddfs.ownsLine_iff.1 hd
  obtain ⟨-, helo, hehi⟩ := Ddfs.ownsLine_iff.1 he
  unfold Ddfs.disjointFrom
  omega

/-- Under the invariant the owner of a line is the only one (R39 item 8). -/
theorem State.Inv.eq_of_ownsLine {s : State} (h : s.Inv) {j : Nat} {d e : Ddfs} (hd : d ∈ s.insts)
    (he : e ∈ s.insts) (hdown : d.ownsLine j = true) (heown : e.ownsLine j = true) : e = d := by
  obtain ⟨i, hi⟩ := List.mem_iff_getElem?.1 hd
  obtain ⟨k, hk⟩ := List.mem_iff_getElem?.1 he
  by_cases hik : i = k
  · rw [hik, hk] at hi; exact Option.some.inj hi
  · obtain ⟨hdo, -⟩ := Ddfs.ownsLine_iff.1 hdown
    obtain ⟨heo, -⟩ := Ddfs.ownsLine_iff.1 heown
    exact absurd (h.one_owner i k d e hik hi hk hdo heo)
      (Ddfs.not_disjointFrom_of_ownsLine hdown heown)

/-- Settles O60: by the invariant the owner of a line is the only one, so its output is the one shown. -/
theorem linesShowTheirOwnersOutput : Obligations.LinesShowTheirOwnersOutput := by
  intro s j hinv hj
  rw [State.observe_getElem? hj]
  refine ⟨fun i d hi hown hlo hhi => ?_, fun hnone => ?_⟩
  · have hd : d ∈ s.insts := List.mem_of_getElem? hi
    have howns : d.ownsLine j = true := Ddfs.ownsLine_iff.2 ⟨hown, hlo, hhi⟩
    rw [lineLevel_of_only_owner hd howns fun e he => hinv.eq_of_ownsLine hd he howns]
  · rw [lineLevel_of_no_owner fun d hd => mt Ddfs.ownsLine_iff.1 (hnone d hd)]

end Sys2Proof.Machine
end

section
/-! Proofs: exceptions (spec/60_exceptions.md R260 to R268). First what a cycle makes of an instance
whose output hardware is lost; then the simultaneous events, each as the command's effect followed by the
phases after it. -/

namespace Sys2Proof.Machine

-- ---------------------------------------------------------------- line loss (R266)

theorem Ddfs.afterHost_lost_of_own (p : Params) (ready : Bool) {d : Ddfs} (hown : d.own = true) :
    d.afterHost p true ready = d.loseLines := by
  have hloss : d.lineLossPhase true = d.loseLines := by simp [Ddfs.lineLossPhase, hown]
  have hreleased : d.loseLines.Released := d.release_released (.inr rfl)
  calc d.afterHost p true ready
      = d.loseLines.afterHost p false ready := by rw [Ddfs.afterHost, hloss]; rfl
    _ = d.loseLines := hreleased.afterHost_eq p false ready

theorem Ddfs.afterHost_lost_of_not_own (p : Params) (ready : Bool) {d : Ddfs} (hown : d.own = false) :
    d.afterHost p true ready = d.afterHost p false ready := by
  have hloss : d.lineLossPhase true = d := by simp [Ddfs.lineLossPhase, hown]
  rw [Ddfs.afterHost, hloss, Ddfs.afterHost_not_lost]

/-- Settles O56: the line loss releases an owner before its units run, and a released instance has no
rule to run; where no line is owned the phase does nothing. -/
theorem lineLossIsFatalToAnOwner : Obligations.LineLossIsFatalToAnOwner :=
  fun p ready _ => ⟨Ddfs.afterHost_lost_of_own p ready, Ddfs.afterHost_lost_of_not_own p ready⟩

-- ---------------------------------------------------------------- simultaneous events (R268)

/-- The host phase releases the lines first, so the line loss finds none owned. -/
theorem Ddfs.forcedStop_afterHost (p : Params) (lost ready : Bool) {d : Ddfs}
    (hrun : d.state = .running) :
    (d.stopCommand true).afterHost p lost ready = d.teardown.succeed := by
  have hreleased : d.teardown.succeed.Released := { d.release_released (.inl rfl) with }
  rw [Ddfs.stopCommand_of_teardown (.inr ⟨hrun, rfl⟩), hreleased.afterHost_eq]

/-- A pending stop leaves the lines owned, so the line loss takes them. -/
theorem Ddfs.gracefulStop_lost (p : Params) (ready : Bool) {d : Ddfs} (hrun : d.state = .running)
    (hown : d.own = true) :
    (d.stopCommand false).afterHost p true ready = (d.stopCommand false).loseLines := by
  have hkept : (d.stopCommand false).own = true := by rw [Ddfs.stopCommand_of_graceful hrun, hown]
  exact Ddfs.afterHost_lost_of_own p ready hkept

/-- `DRIVE` takes a stop of the same cycle, and the teardown takes the place of the push
(42_channel.md R184). -/
theorem Ddfs.gracefulStop_at_drive (p : Params) (ready : Bool) {d : Ddfs} (hrun : d.state = .running)
    (hdrive : d.ePhase = .drive) :
    (d.stopCommand false).afterHost p false ready = (d.stopCommand false).teardown := by
  have hstops : (d.stopCommand false).StopsIn p 0 := by
    rw [Ddfs.stopCommand_of_graceful hrun]
    exact { running := hrun, pending := rfl, phase := .inl ⟨hdrive, rfl⟩ }
  exact hstops.afterHost_of_drive ready

/-- The host phase zeroes the counter first, so the stall counts its episode from there. -/
theorem Ddfs.clrUnderrun_at_stall (p : Params) (ready : Bool) {d : Ddfs} (hrun : d.state = .running)
    (hload : d.ePhase = .load) (hpend : d.stopPending = false) (hstall : d.stalled = false)
    (hq : d.q = []) : (d.clrUnderrunCommand.afterHost p false ready).underrunCnt = 1#32 := by
  obtain ⟨-, -, -, -, -, hempty, -⟩ :=
    underrunStallsAndRecovers p ready d.clrUnderrunCommand hrun hload hpend
  obtain ⟨-, -, -, hcnt⟩ := hempty hq
  have hnot : ¬ d.clrUnderrunCommand.stalled = true := Bool.eq_false_iff.1 hstall
  exact BitVec.eq_of_toNat_eq (hcnt.trans (if_neg hnot))

/-- Settles O57: each event meets the instance as the phases before its own have left it. -/
theorem simultaneousEventsFollowThePhaseOrder : Obligations.SimultaneousEventsFollowThePhaseOrder := by
  intro p ready d
  refine ⟨fun hrun => ?forced, fun hrun hown => ?graceful, fun pinBase pat inc => ?start,
    fun hrun hdrive => ?drive, Ddfs.clrUnderrun_at_stall p ready⟩
  case forced => rw [Ddfs.forcedStop_afterHost p true ready hrun]; rfl
  case graceful => rw [Ddfs.gracefulStop_lost p ready hrun hown, Ddfs.loseLines_state]
  case start =>
    rw [Ddfs.afterHost_lost_of_own p ready (Ddfs.startRun_own pinBase pat inc d), Ddfs.loseLines_state]
  case drive =>
    rw [Ddfs.gracefulStop_at_drive p ready hrun hdrive]
    exact ⟨Ddfs.teardown_q _, Ddfs.teardown_state _⟩

end Sys2Proof.Machine
end

section
/-! Proofs: hazards (spec/70_reset_and_hazards.md R293). What the host phase answers to more accesses than
one; the cycles of none and of one access stand with the proofs about the cycle. -/

namespace Sys2Proof.Machine

/-- The refusal is by number alone: neither the windows, the offsets nor the kinds of the accesses matter. -/
theorem State.hostPhase_of_two_le {accs : List (Nat × Nat × HostAccess)} (hmany : 2 ≤ accs.length)
    (s : State) : s.hostPhase accs = .refused .secondAccessInCycle := by
  match accs, hmany with
  | _ :: _ :: _, _ => rfl

/-- Settles O27: without `rst` the cycle begins with the host phase, and its refusal is the step's. -/
theorem secondAccessInACycleIsRefused : Obligations.SecondAccessInACycleIsRefused := by
  intro s hblock hrst hmany
  rw [step_of_not_rst hblock hrst]
  exact thenNext_eq_refused.2 (State.hostPhase_of_two_le hmany _)

end Sys2Proof.Machine
end

section
/-! Proofs: what the block leaves to the platform (spec/93_implementation_defined.md I24). Which platform
addresses select no window, and what of the host's accesses a cycle depends on. -/

namespace Sys2Proof.Machine

/-- The addresses "not the block's": those below the first window and those from the last one's end on. -/
theorem selectWindow_platform_eq_none {p : Params} {addr : Nat} :
    selectWindow p (.platform addr) = none ↔
      addr < Config.blockBase ∨ Config.blockBase + 0x40 * p.nInst ≤ addr := by
  simp only [selectWindow, ite_eq_right_iff, reduceCtorEq, imp_false, not_and_or, Nat.not_le, Nat.not_lt]

theorem selectedAccesses_cons_of_none {p : Params} {a : HostAccess}
    (hnone : selectWindow p a.address = none) (rest : List HostAccess) :
    selectedAccesses p (a :: rest) = selectedAccesses p rest := by
  simp only [selectedAccesses, hnone]

/-- A cycle depends on the host's accesses through the selected ones alone (log entry 15): neither `sample`
nor the phases after the host phase read them. -/
theorem State.cycleWith_congr_accesses {s : State} {accs accs' : List HostAccess}
    (hsel : selectedAccesses s.params accs = selectedAccesses s.params accs') (c : CycleInputs) :
    s.cycleWith { c with accesses := accs } = s.cycleWith { c with accesses := accs' } := by
  simp only [State.cycleWith, hsel]
  rfl

/-- Settles O26: an access outside every window is not selected, so the cycle does not depend on it. -/
theorem accessOutsideTheWindowsIsNoAccess : Obligations.AccessOutsideTheWindowsIsNoAccess := by
  intro s c addr width kind houtside
  have hnone : selectWindow s.params (.platform addr) = none := selectWindow_platform_eq_none.2 houtside
  exact s.cycleWith_congr_accesses (selectedAccesses_cons_of_none hnone c.accesses) c

end Sys2Proof.Machine
end
